-- ==== Sys2Proof/Word.lean ====
section
/-! DEFINITION. The word types of CC20-CORE (00_scope.md rule R7: WORD = 32 bits, BLOCK_BYTES = 64, a 64-bit
block counter) and nothing else: byte order and field extraction stand in the files under Machine/. -/

namespace Sys2Proof

/-- A 32-bit word: every state word, argument register and host register (R7, R40). -/
abbrev Word := BitVec 32

/-- One byte of buffer memory or of a keystream block (R61). -/
abbrev Byte := BitVec 8

/-- The 64-bit block counter CTR, and every block index (R26, R7). -/
abbrev BlockIndex := BitVec 64

/-- The 16-word state the Block Transform reads, and its working array (R23, R50). -/
abbrev StateWords := Vector Word 16

/-- The 64 bytes of one keystream block (R7, R109). -/
abbrev BlockBytes := Vector Byte 64

end Sys2Proof
end

