-- ==== Sys2Proof/Config.lean ====
section
/-! DEFINITION. What is fixed for one machine (00_scope.md rules R7 and R8) and the two free values of the model. -/

namespace Sys2Proof

/-- The parameters the spec leaves OPEN (00_scope.md R8; 92_eei_decisions.md, Open parameters). A `Config` stands in State
as a value no step writes, so that every statement about all states holds for every choice of them; the values in
State.reset are log entry 1's. -/
structure Config where
  /-- MEM_SIZE, the bytes of buffer memory (R8, R69). -/
  memSize : Nat
  /-- NUM_LANES, the permutation lanes the workers run on (R8, R198). -/
  numLanes : Nat
  /-- REG_BASE, the address of the register window in the host's address space (R68). -/
  regBase : Nat
  /-- BUF_BASE, the address at which the host sees buffer memory address 0 (R68). -/
  bufBase : Nat
  /-- PLATFORM_COHERENT, whether the platform keeps the host's view of buffer memory coherent with the core's (R78). -/
  platformCoherent : Bool
deriving DecidableEq, Repr

/-- The constraints on the parameters: 1 ≤ MEM_SIZE ≤ 2^32 and NUM_LANES ≥ 1 (R8); and, DEDUCED (log entry 20), that no
address of the host's space lies both in the register window and in buffer memory. -/
abbrev Config.ok (c : Config) : Prop :=
  1 ≤ c.memSize ∧ c.memSize ≤ 2 ^ 32 ∧ 1 ≤ c.numLanes ∧
    (c.regBase + 0x40 ≤ c.bufBase ∨ c.bufBase + c.memSize ≤ c.regBase)

/-- The parameters in State.reset, all OPEN in the spec: DESIGN CHOICE (log entry 1). -/
def Config.reset : Config where
  memSize := 0x10000
  numLanes := 1
  regBase := 0x10000
  bufBase := 0
  platformCoherent := true

/-- The round count of reset and of INIT (R7, R28, R132). -/
def Config.defaultRounds : BitVec 8 := 20

/-- DEFAULT_BPC (R8). -/
def Config.defaultBpc : Word := 512

/-- DEFAULT_MAXW (R8). -/
def Config.defaultMaxw : Word := 128

/-- DEFAULT_PAR_EN (R8). -/
def Config.defaultParEn : Bool := true

/-- What a byte of buffer memory that nothing has written reads as. DESIGN CHOICE, unsafe (log entry 2): the spec gives
the memory no reset contents (R61); 95_test_vectors.md takes it as zero. -/
def Config.unlistedByte : Byte := 0

/-- FREE VALUE (R261; 93_implementation_defined.md U4): when reset abandons a running command, whether the byte at an
address of the command's destination range already holds what the command would have written there. The first
argument is the number of the draw (State.draws), the second the address. It has no body: nothing can be proved of
its values (log entry 3). -/
opaque Config.abandonedByteWritten : Nat → Nat → Bool

/-- FREE VALUE (R78; 93_implementation_defined.md U10): with PLATFORM_COHERENT false, which of the byte's values, the
present one and the past ones, a host read of buffer memory returns. The first argument is the number of the draw
(State.draws), the second the address. It has no body (log entry 21). -/
opaque Config.staleByteChoice : Nat → Nat → Nat

end Sys2Proof
end

