-- ==== Sys2Proof/Syntax.lean ====
section
/-! DEFINITION. The commands of CC20-CORE: one constructor per row of spec/opcode_table.json (30_encoding.md R83).
A constructor carries the operands that stand in the command WORD (R81: IMM8 and F). The other operands are the argument
registers A0 .. A3 (R85), which are state and are read by the meanings. -/

namespace Sys2Proof

/-- The nine commands (R83). -/
inductive Instr where
  /-- 0x01, construction from a key and a nonce (R132). -/
  | init
  /-- 0x02, load a key (R131). -/
  | keysetup
  /-- 0x03, load a nonce and rewind (R133). -/
  | ivsetup
  /-- 0x04, set the round count to IMM8 = `r` (R135). -/
  | setrounds (r : BitVec 8)
  /-- 0x05, reposition to block A1:A0 (R136). -/
  | seek
  /-- 0x06, read the block counter (R134). -/
  | getctr
  /-- 0x07, set the tuning controls, F = `f` being the parallel enable (R137). -/
  | tune (f : Bool)
  /-- 0x08, destination = source XOR keystream (R177). -/
  | xor
  /-- 0x09, destination = keystream (R178). -/
  | ks
deriving DecidableEq, Repr

end Sys2Proof
end

