-- ==== Sys2Proof/Machine/State.lean ====
section
/-! DEFINITION. The state of CC20-CORE as plain data (10_state.md), its reset value (R53), and the reasons a step can
stop. -/

namespace Sys2Proof.Machine

/-- Buffer memory (20_memory.md R60, R61): the listed bytes, addresses strictly rising, no entry equal to what an
unlisted address reads as (`Memory.wf` in Machine/Ops.lean). -/
abbrev Memory := List Host.Cell

/-- The cause codes of STATUS.CAUSE (60_exceptions.md R225). The reserved codes 12 .. 15 are never written, so they have
no constructor. -/
inductive Cause where
  | ok
  | invalidKeyLength
  | invalidNonceLength
  | invalidRoundCount
  | insufficientOutputSpace
  | keystreamExhausted
  | fatalMisuse
  | illegalCommand
  | notConfigured
  | addressError
  | overlapError
  | invalidTuning
deriving DecidableEq, Repr

/-- What the sequential engine, the workers and the Block Transform work on: the context registers of 10_state.md R24 to
R33 that belong to the keystream, and the buffer memory. -/
structure Engine where
  /-- CONST[0..3] (R24). -/
  const : Vector Word 4
  /-- KEY[0..7] (R25). -/
  key : Vector Word 8
  /-- CTR, the index of the NEXT block to generate; CTR_LO and CTR_HI are its halves (R26). -/
  ctr : BlockIndex
  /-- NONCE[0..1] (R27). -/
  nonce : Vector Word 2
  /-- ROUNDS (R28). -/
  rounds : BitVec 8
  /-- OUTBUF[0..63] (R29). -/
  outbuf : BlockBytes
  /-- The cursor NEXT, 0 .. 64 (R30; the values 65 .. 127 of the 7-bit register are never written). -/
  next : Fin 65
  /-- EXH (R31). -/
  exh : Bool
  /-- TERM (R32). -/
  term : Bool
  /-- GEN (R33). -/
  gen : Bool
  /-- The buffer memory (R60). -/
  mem : Memory
deriving DecidableEq, Repr

/-- One worker of a parallel region (R51, 43_parallel.md R200). -/
structure Worker where
  /-- Its identifier, the chunk index (R245). -/
  k : Nat
  /-- Its private copies of CONST, KEY, NONCE and ROUNDS. -/
  const : Vector Word 4
  key : Vector Word 8
  nonce : Vector Word 2
  rounds : BitVec 8
  /-- Its private counter, from BASE + k·BPC. -/
  ctr : BlockIndex
  /-- The blocks it has left, from BPC. -/
  left : Nat
deriving DecidableEq, Repr

/-- The scheduler's state while a parallel region runs (R49). SRC, DST and Z stand in the `Job` that runs the region. -/
structure Region where
  /-- BASE, the counter before the region (R192). -/
  base : BlockIndex
  /-- N, the number of chunks (R194). -/
  n : Nat
  /-- OFF, the region's first byte offset in the command's range (R194's i0). -/
  off : Nat
  /-- SEM, the free admission slots (R196). -/
  sem : Nat
  /-- PENDING, the chunks not yet admitted (R197). -/
  pending : List Nat
  /-- RUNNING, the admitted workers that have not released (R197, R199). -/
  running : List Worker
  /-- DONE, the finished chunks (R199). -/
  done : List Nat
deriving DecidableEq, Repr

/-- Where a running XOR or KS command stands in `Run` (43_parallel.md R190). -/
inductive Stage where
  /-- The leading SeqRun over the buffered bytes (R191); then the eligibility decision (R193 to R195). -/
  | lead
  /-- A parallel region (R196 to R204). -/
  | region (r : Region)
  /-- The final SeqRun (R205). -/
  | rest
deriving DecidableEq, Repr

/-- A running XOR or KS command that is carried out in the atomic steps of 70_reset_and_hazards.md R288. -/
structure Job where
  src : Nat
  dst : Nat
  /-- The length L. -/
  len : Nat
  /-- Z = 1: an all-zero source (KS). -/
  zero : Bool
  /-- The offset reached, i. -/
  i : Nat
  stage : Stage
  /-- The engine as it was when the command started: what STATUS and CFG go on showing while BUSY = 1 (R48), and the
  bytes a reset during the command may leave (R261). -/
  start : Engine
deriving DecidableEq, Repr

/-- What the sequencer is doing. BUSY = 1 exactly when this is not `idle` (R37, R41). -/
inductive Phase where
  | idle
  /-- The command word W that the host's write to CMD latched (R41 steps 1 and 2). -/
  | accepted (w : Word)
  /-- An XOR or KS that passed its checks and is being carried out step by step. -/
  | running (j : Job)
deriving DecidableEq, Repr

/-- What the host can do to the core (R22(a), R40 to R48, R260). Widths are in bits, offsets and addresses in bytes. -/
inductive HostAccess where
  | readReg (offset width : Nat)
  | writeReg (offset width : Nat) (v : Word)
  | readMem (addr : Nat)
  | writeMem (addr : Nat) (b : Byte)
  /-- The platform's reset input (R260). -/
  | reset
deriving DecidableEq, Repr

/-- A host access at an address of the HOST's address space (20_memory.md R68), which the platform routes to the register
window or to buffer memory (`BusAccess.route` in Machine/HostPort.lean). Widths are in bits. -/
inductive BusAccess where
  | read (addr width : Nat)
  | write (addr width : Nat) (v : Word)
deriving DecidableEq, Repr

/-- Who moves next. The order of these is an input of the machine: the spec fixes no timing (R288). -/
inductive Turn where
  /-- The host makes an access, named by the core's own offsets and addresses. -/
  | host (a : HostAccess)
  /-- The host makes an access, named by an address of its own space. -/
  | bus (b : BusAccess)
  /-- The platform makes the core's writes visible to the host (R78): its duty where PLATFORM_COHERENT is false. -/
  | sync
  /-- The core moves: an accepted command is carried out whole, in one step; a running one takes its next atomic step. -/
  | core
  /-- The core takes ONE atomic step of R288; `pick` says which enabled step of the workers fires (R197, R202: any
  order). -/
  | fine (pick : Nat)
deriving DecidableEq, Repr

/-- Why the machine stops with a fault. All are faults of the HOST's program, never of a command. -/
inductive Fault where
  /-- Raised by a host access to a buffer memory byte that a running command reads or writes, against R285
  (93_implementation_defined.md U2 asks for a fault). Safe: the model stops where no source defines the result. -/
  | hostTouchesRunningRange
  /-- Raised by a host access to a buffer memory address ≥ MEM_SIZE, which does not exist (R60). Safe: the model stops. -/
  | hostAddressOutsideMemory
deriving DecidableEq, Repr

/-- Why the machine refuses. -/
inductive Refusal where
  /-- An instruction with no meaning yet; no arm of `exec` uses it now. Safe: the model stops. -/
  | notModelled (mnemonic : String)
  /-- Raised by a host register access that is not 32 bits wide or not at an offset 0x00, 0x04, .., 0x3C (R48 and
  93_implementation_defined.md U1: a model refuses it). Safe: the model stops. -/
  | hostRegisterAccessShape
  /-- Raised by a bus access that reaches neither the register window nor, one byte wide, buffer memory: what stands there
  is the platform's (R68; log entry 20). Safe: the model stops. -/
  | busAccessNotRouted
deriving DecidableEq, Repr

/-- The whole state. -/
structure State extends Engine where
  /-- KEYSET, IVSET, KEY256 (R34). -/
  keyset : Bool
  ivset : Bool
  key256 : Bool
  /-- FATAL and OVR (R35). -/
  fatal : Bool
  ovr : Bool
  /-- The tuning registers PAR_EN, BPC and MAXW (R36). -/
  parEn : Bool
  bpc : Word
  maxw : Word
  /-- The result registers CAUSE, RES0 and RES1 (R38). -/
  cause : Cause
  res0 : Word
  res1 : Word
  /-- The argument registers A0 .. A3 (R42). -/
  a0 : Word
  a1 : Word
  a2 : Word
  a3 : Word
  /-- What the sequencer is doing; BUSY, the latched command word, the scheduler's and the workers' state (R37, R41, R49,
  R51). -/
  phase : Phase
  /-- The fixed parameters of the machine; no step writes them (R8). -/
  cfg : Config
  /-- The buffer memory when the platform last made the writes visible, and before each host write, command and reset since
  then, newest first: the past values of a byte that an incoherent platform may show the host (R78, 93_implementation_defined.md U10).
  The core never reads it. -/
  past : List Memory
  /-- The MODEL's own: who moves next, oldest first (log entry 4). -/
  agenda : List Turn
  /-- The MODEL's own: what the last host read returned (log entry 5). -/
  rdata : Word
  /-- The MODEL's own: how many draws of the free value have been made (log entry 3). -/
  draws : Nat
deriving DecidableEq, Repr

/-- The engine's registers after reset (R53). -/
def Engine.reset : Engine where
  const := Vector.replicate 4 0
  key := Vector.replicate 8 0
  ctr := 0
  nonce := Vector.replicate 2 0
  rounds := Config.defaultRounds
  outbuf := Vector.replicate 64 0
  next := 64
  exh := false
  term := false
  gen := false
  mem := []

/-- The machine right after reset (R53, R260 to R262), with the parameters of `Config.reset`. -/
def State.reset : State where
  toEngine := Engine.reset
  keyset := false
  ivset := false
  key256 := false
  fatal := false
  ovr := false
  parEn := Config.defaultParEn
  bpc := Config.defaultBpc
  maxw := Config.defaultMaxw
  cause := .ok
  res0 := 0
  res1 := 0
  a0 := 0
  a1 := 0
  a2 := 0
  a3 := 0
  phase := .idle
  cfg := Config.reset
  past := []
  agenda := []
  rdata := 0
  draws := 0

/-- What a meaning or a step answers. -/
abbrev Result := Host.Outcome State Fault Refusal

end Sys2Proof.Machine
end

