-- ==== Sys2Proof/Machine/Ops.lean ====
section
/-! DEFINITION. The operations over buffer memory (20_memory.md R60 to R71) and the two ways a command ends: `finish` and
`reject` (60_exceptions.md R228, R229), which are this core's "taking an exception" (R239: an error moves no control and
saves nothing but CAUSE, RES0, RES1 and the FATAL latch), and the rejection without effect under FATAL (R231). No
command returns from an exception (R240). -/

namespace Sys2Proof.Machine

/-! ### Buffer memory -/

/-- The canonical form: addresses strictly rising, and no entry that an unlisted address would read as. -/
abbrev Memory.wf (m : Memory) : Prop :=
  m.Pairwise (fun c d => c.1 < d.1) ∧ ∀ c ∈ m, c.2 ≠ Config.unlistedByte

/-- The byte at an address (R62 for one byte). -/
def Memory.read : Memory → Nat → Byte
  | [], _ => Config.unlistedByte
  | (k, c) :: m, a => if a = k then c else Memory.read m a

/-- The memory with one byte written (R63 for one byte), in canonical form. -/
def Memory.write : Memory → Nat → Byte → Memory
  | [], a, b => if b = Config.unlistedByte then [] else [(a, b)]
  | (k, c) :: m, a, b =>
    if a < k then (if b = Config.unlistedByte then (k, c) :: m else (a, b) :: (k, c) :: m)
    else if a = k then (if b = Config.unlistedByte then m else (k, b) :: m)
    else (k, c) :: Memory.write m a b

/-- `MemRead(a, n)` (R62). -/
def Memory.readBytes (m : Memory) (a n : Nat) : List Byte :=
  (List.range n).map fun j => m.read (a + j)

/-- `MemWrite(a, n, bs)`, n being the length of `bs` (R63). -/
def Memory.writeBytes (m : Memory) (a : Nat) : List Byte → Memory
  | [] => m
  | b :: bs => Memory.writeBytes (m.write a b) (a + 1) bs

/-- The byte of the source at address `a`: 0 for an all-zero source, else read from memory (R170, R200). -/
def Memory.sourceByte (m : Memory) (zero : Bool) (a : Nat) : Byte :=
  if zero then 0 else m.read a

/-- R69's check on `n` bytes at `a`: in range, as an unbounded sum; an access of no bytes is never checked. -/
def inMemory (memSize a n : Nat) : Bool := n = 0 || a + n ≤ memSize

/-- R71's test for a partial overlap of source and destination. -/
def partialOverlap (src dst n : Nat) : Bool := 0 < n && src ≠ dst && src < dst + n && dst < src + n

/-! ### Byte order (R64) -/

/-- `LE32(b, i)`: the word of the four bytes of `b` from index `i`, least significant first. -/
def le32 (b : List Byte) (i : Nat) : Word :=
  b.getD (i + 3) 0 ++ b.getD (i + 2) 0 ++ b.getD (i + 1) 0 ++ b.getD i 0

/-- Byte `j` of `SER32(w)`: `w[8j+7 : 8j]`. -/
def serByte (w : Word) (j : Nat) : Byte := w.extractLsb' (8 * j) 8

/-! ### Ending a command -/

/-- The code of a cause (R225). -/
def Cause.code : Cause → BitVec 4
  | .ok => 0
  | .invalidKeyLength => 1
  | .invalidNonceLength => 2
  | .invalidRoundCount => 3
  | .insufficientOutputSpace => 4
  | .keystreamExhausted => 5
  | .fatalMisuse => 6
  | .illegalCommand => 7
  | .notConfigured => 8
  | .addressError => 9
  | .overlapError => 10
  | .invalidTuning => 11

/-- The fatal class: every cause but OK and KeystreamExhausted (R220, R225). -/
def Cause.isFatal : Cause → Bool
  | .ok => false
  | .keystreamExhausted => false
  | .invalidKeyLength => true
  | .invalidNonceLength => true
  | .invalidRoundCount => true
  | .insufficientOutputSpace => true
  | .fatalMisuse => true
  | .illegalCommand => true
  | .notConfigured => true
  | .addressError => true
  | .overlapError => true
  | .invalidTuning => true

/-- `finish(cause, r0, r1)` (R228), with R41's step 5: BUSY ← 0. -/
def State.finish (s : State) (c : Cause) (r0 r1 : Word) : State :=
  { s with cause := c, res0 := r0, res1 := r1, fatal := s.fatal || c.isFatal, phase := .idle }

/-- `reject(cause)` (R229). -/
def State.reject (s : State) (c : Cause) : State := s.finish c 0 0

/-- A command rejected without effect (R231): BUSY falls, and nothing else changes. -/
def State.dropCommand (s : State) : State := { s with phase := .idle }

/-- The gate under FATAL for every command but INIT (R231, R233 step 1). -/
def State.gated (s : State) (body : Result) : Result :=
  if s.fatal then .next s.dropCommand else body

/-- A command that decides on a cause before it changes anything: `reject` on the first check that applies (R233 step 3),
else its effect. -/
def State.checked (s : State) (check : Option Cause) (effect : State) : Result :=
  match check with
  | some c => .next (s.reject c)
  | none => .next effect

/-- An illegal word (R232). -/
def State.illegalCommand (s : State) : Result := s.gated (.next (s.reject .illegalCommand))

/-- BUSY (R37): whether a command has been accepted and has not completed. -/
def State.busy (s : State) : Bool :=
  match s.phase with
  | .idle => false
  | .accepted _ => true
  | .running _ => true

/-! ### Context registers written by more than one command -/

/-- CTR_LO = CTR[31:0] (R26). -/
def Engine.ctrLo (e : Engine) : Word := e.ctr.extractLsb' 0 32

/-- CTR_HI = CTR[63:32] (R26). -/
def Engine.ctrHi (e : Engine) : Word := e.ctr.extractLsb' 32 32

/-- `SeekTo(n)` (41_context.md R130). -/
def Engine.seekTo (e : Engine) (n : BlockIndex) : Engine :=
  { e with ctr := n, next := 64, exh := false, term := false, gen := false }

end Sys2Proof.Machine
end

