-- ==== Sys2Proof/Machine/Flags.lean ====
section
/-! DEFINITION. The lifecycle state and the host's views of the flags: STATUS, CFG and the other readable registers of the
window (10_state.md R40 to R47, R54). The core has no condition codes (R55). -/

namespace Sys2Proof.Machine

/-- The lifecycle states (R54). -/
inductive Lifecycle where
  | unconfigured
  | initialized
  | active
  | exhausted
deriving DecidableEq, Repr

/-- The two bits of STATUS.LSTATE (R43). -/
def Lifecycle.code : Lifecycle → BitVec 2
  | .unconfigured => 0
  | .initialized => 1
  | .active => 2
  | .exhausted => 3

/-- LSTATE, derived from the flags (R54). -/
def lifecycleOf (keyset ivset exh gen : Bool) : Lifecycle :=
  if !keyset || !ivset then .unconfigured
  else if exh then .exhausted
  else if gen then .active
  else .initialized

/-- The lifecycle state of the context (R54). -/
def State.lifecycle (s : State) : Lifecycle := lifecycleOf s.keyset s.ivset s.exh s.gen

/-- The engine registers the host's views show: while a command runs, those it started with (R48). -/
def State.viewEngine (s : State) : Engine :=
  match s.phase with
  | .idle => s.toEngine
  | .accepted _ => s.toEngine
  | .running j => j.start

/-- STATUS (R43): BUSY[0], FATAL[1], EXH[2], TERM[3], LSTATE[5:4], OVR[6], CAUSE[11:8]; the other bits read 0. -/
def State.statusWord (s : State) : Word :=
  (0 : BitVec 20) ++ s.cause.code ++ (0 : BitVec 1) ++ BitVec.ofBool s.ovr
    ++ (lifecycleOf s.keyset s.ivset s.viewEngine.exh s.viewEngine.gen).code
    ++ BitVec.ofBool s.viewEngine.term ++ BitVec.ofBool s.viewEngine.exh
    ++ BitVec.ofBool s.fatal ++ BitVec.ofBool s.busy

/-- CFG (R45): PAR_EN[0], KEY256[1], KEYSET[2], IVSET[3], ROUNDS[15:8]; the other bits read 0. -/
def State.cfgWord (s : State) : Word :=
  (0 : BitVec 16) ++ s.viewEngine.rounds ++ (0 : BitVec 4) ++ BitVec.ofBool s.ivset
    ++ BitVec.ofBool s.keyset ++ BitVec.ofBool s.key256 ++ BitVec.ofBool s.parEn

/-- What a host read of the register at an offset returns (R40 to R47): CMD and the unmapped offsets read 0. -/
def State.readRegister (s : State) (offset : Nat) : Word :=
  match offset with
  | 0x04 => s.a0
  | 0x08 => s.a1
  | 0x0C => s.a2
  | 0x10 => s.a3
  | 0x14 => s.statusWord
  | 0x18 => s.res0
  | 0x1C => s.res1
  | 0x20 => s.cfgWord
  | 0x24 => s.bpc
  | 0x28 => s.maxw
  | _ => 0

end Sys2Proof.Machine
end

