-- ==== Sys2Proof/WellFormed.lean ====
section
/-! DEFINITION. Which operand values fit (30_encoding.md R81, R87, R95). An `Instr` carries its word fields at their
exact widths, so every `Instr` is well formed; the values an assembler line names are numbers, and these are the
checks R95 makes on them. -/

namespace Sys2Proof

/-- Every command of the type `Instr` has a word: its operands have the widths of the fields of R81 (SETROUNDS with any
8-bit immediate is a legal word, R87). -/
def Instr.wellFormed : Instr → Bool
  | .init => true
  | .keysetup => true
  | .ivsetup => true
  | .setrounds _ => true
  | .seek => true
  | .getctr => true
  | .tune _ => true
  | .xor => true
  | .ks => true

/-- An argument operand fits a 32-bit argument register (R95: "any value ≥ 2^32 in an argument" is an error). -/
def fitsArgument (n : Nat) : Bool := n < 2 ^ 32

/-- SEEK's block index fits the two argument registers A1:A0 (R95: "≥ 2^64 for SEEK"). -/
def fitsBlockIndex (n : Nat) : Bool := n < 2 ^ 64

/-- SETROUNDS's operand fits IMM8 (R95: "≥ 256 for SETROUNDS"). -/
def fitsRounds (n : Nat) : Bool := n < 256

/-- TUNE's first operand fits the one bit F (R95: "other than 0 or 1 for TUNE's par"). -/
def fitsParallelFlag (n : Nat) : Bool := n < 2

end Sys2Proof
end

