-- ==== Sys2Proof/Decode.lean ====
section
/-! DEFINITION. Decoding of the 32-bit command word (30_encoding.md R80 to R84) and, after it, the encoder. -/

namespace Sys2Proof

/-- Why a word is illegal: the four cases of R84. -/
inductive Illegal where
  /-- R84(b): a nonzero bit in RSV0 (W[15:9]) or RSV1 (W[31:24]). -/
  | reservedBits
  /-- R84(a): OPC is 0x00 or 0x0A .. 0xFF. -/
  | opcode
  /-- R84(c): F = 1 with an OPC other than TUNE. -/
  | flagOperand
  /-- R84(d): IMM8 ≠ 0 with an OPC other than SETROUNDS. -/
  | immediateOperand
deriving DecidableEq, Repr

/-- OPC = W[7:0] (R81). -/
def opcField (w : Word) : BitVec 8 := w.extractLsb' 0 8

/-- F = W[8] (R81). -/
def flagField (w : Word) : Bool := w.getLsbD 8

/-- RSV0 = W[15:9] (R81). -/
def rsv0Field (w : Word) : BitVec 7 := w.extractLsb' 9 7

/-- IMM8 = W[23:16] (R81). -/
def imm8Field (w : Word) : BitVec 8 := w.extractLsb' 16 8

/-- RSV1 = W[31:24] (R81). -/
def rsv1Field (w : Word) : BitVec 8 := w.extractLsb' 24 8

/-- The opcode map of R83, with the operand fields of the word; `none` for OPC 0x00 and 0x0A .. 0xFF. -/
def opcodeMap (opc : BitVec 8) (f : Bool) (imm8 : BitVec 8) : Option Instr :=
  match opc.toNat with
  | 0x01 => some .init
  | 0x02 => some .keysetup
  | 0x03 => some .ivsetup
  | 0x04 => some (.setrounds imm8)
  | 0x05 => some .seek
  | 0x06 => some .getctr
  | 0x07 => some (.tune f)
  | 0x08 => some .xor
  | 0x09 => some .ks
  | _ => none

/-- R82's decoding, its checks in R82's order. It reads only the word. -/
def decode (w : Word) : Except Illegal Instr :=
  if rsv1Field w ≠ 0 ∨ rsv0Field w ≠ 0 then .error .reservedBits
  else match opcodeMap (opcField w) (flagField w) (imm8Field w) with
    | none => .error .opcode
    | some i =>
      if flagField w = true ∧ opcField w ≠ 0x07 then .error .flagOperand
      else if imm8Field w ≠ 0 ∧ opcField w ≠ 0x04 then .error .immediateOperand
      else .ok i

/-- The word of an instruction given as `nbits` bits numbered from bit 0 of the word (every row of the table has one
32-bit word, R80); bits above `nbits` are 0. -/
def tableWord (nbits w : Nat) : Word := BitVec.ofNat 32 (w % 2 ^ nbits)

/-- The instruction the decoder reads from a table word. -/
def decodeTableWord (nbits w : Nat) : Option Instr := (decode (tableWord nbits w)).toOption

/-- The fields of R81 laid out as a word. -/
def layoutWord (rsv1 : BitVec 8) (imm8 : BitVec 8) (rsv0 : BitVec 7) (f : Bool) (opc : BitVec 8) : Word :=
  rsv1 ++ imm8 ++ rsv0 ++ BitVec.ofBool f ++ opc

/-- The command word of a command (R83: OPC, with IMM8 for SETROUNDS and F for TUNE; every other field 0). -/
def encode : Instr → Word
  | .init => layoutWord 0 0 0 false 0x01
  | .keysetup => layoutWord 0 0 0 false 0x02
  | .ivsetup => layoutWord 0 0 0 false 0x03
  | .setrounds r => layoutWord 0 r 0 false 0x04
  | .seek => layoutWord 0 0 0 false 0x05
  | .getctr => layoutWord 0 0 0 false 0x06
  | .tune f => layoutWord 0 0 0 f 0x07
  | .xor => layoutWord 0 0 0 false 0x08
  | .ks => layoutWord 0 0 0 false 0x09

/-- The mnemonic of a command in the opcode map (R83). -/
def Instr.mnemonic : Instr → String
  | .init => "INIT"
  | .keysetup => "KEYSETUP"
  | .ivsetup => "IVSETUP"
  | .setrounds _ => "SETROUNDS"
  | .seek => "SEEK"
  | .getctr => "GETCTR"
  | .tune _ => "TUNE"
  | .xor => "XOR"
  | .ks => "KS"

/-- A row of the opcode map: a word W selects the row when `W & mask = match` (R83). -/
structure OpcodeRow where
  mnemonic : String
  matchWord : Word
  mask : Word
deriving DecidableEq, Repr

/-- The opcode map's match and mask columns (R83; spec/opcode_table.json). -/
def opcodeRows : List OpcodeRow :=
  [⟨"INIT", 0x00000001, 0xFFFFFFFF⟩, ⟨"KEYSETUP", 0x00000002, 0xFFFFFFFF⟩, ⟨"IVSETUP", 0x00000003, 0xFFFFFFFF⟩,
   ⟨"SETROUNDS", 0x00000004, 0xFF00FFFF⟩, ⟨"SEEK", 0x00000005, 0xFFFFFFFF⟩, ⟨"GETCTR", 0x00000006, 0xFFFFFFFF⟩,
   ⟨"TUNE", 0x00000007, 0xFFFFFEFF⟩, ⟨"XOR", 0x00000008, 0xFFFFFFFF⟩, ⟨"KS", 0x00000009, 0xFFFFFFFF⟩]

/-- Whether a word selects a row (R83). -/
def OpcodeRow.selects (r : OpcodeRow) (w : Word) : Bool := w &&& r.mask = r.matchWord

end Sys2Proof
end

