-- ==== Sys2Proof/Machine/Operands.lean ====
section
/-! DEFINITION. Operand assembly (30_encoding.md R85, R86) and the checks each command makes on its operands before it
changes anything, in the order its rule lists them (60_exceptions.md R233 step 3). A check answers the cause of the
rejection, or `none`. -/

namespace Sys2Proof.Machine

/-- SEEK's block index n = A1:A0 (R86). -/
def State.seekIndex (s : State) : BlockIndex := s.a1 ++ s.a0

/-- The key lengths of R131 and R132: 16 or 32 bytes. -/
def keyLengthOk (n : Nat) : Bool := n = 16 || n = 32

/-- The round counts of R135. -/
def roundsOk (r : BitVec 8) : Bool := r = 8 || r = 12 || r = 20

/-- INIT's checks (R132): A0 = key address, A1 = nonce address, A2 = key length, A3 = nonce length. -/
def State.checkInit (s : State) : Option Cause :=
  if !keyLengthOk s.a2.toNat then some .invalidKeyLength
  else if s.a3.toNat ≠ 8 then some .invalidNonceLength
  else if !inMemory s.cfg.memSize s.a0.toNat s.a2.toNat || !inMemory s.cfg.memSize s.a1.toNat s.a3.toNat then
    some .addressError
  else none

/-- KEYSETUP's checks (R131): A0 = key address, A2 = key length. -/
def State.checkKeysetup (s : State) : Option Cause :=
  if !keyLengthOk s.a2.toNat then some .invalidKeyLength
  else if !inMemory s.cfg.memSize s.a0.toNat s.a2.toNat then some .addressError
  else none

/-- IVSETUP's checks (R133): A0 = nonce address, A2 = nonce length. -/
def State.checkIvsetup (s : State) : Option Cause :=
  if s.a2.toNat ≠ 8 then some .invalidNonceLength
  else if !inMemory s.cfg.memSize s.a0.toNat s.a2.toNat then some .addressError
  else none

/-- SETROUNDS's check (R135). -/
def checkSetrounds (r : BitVec 8) : Option Cause :=
  if roundsOk r then none else some .invalidRoundCount

/-- TUNE's check (R137): A0 = blocks per chunk, A1 = maximum concurrent workers. -/
def State.checkTune (s : State) : Option Cause :=
  if s.a0 = 0 ∨ s.a1 = 0 then some .invalidTuning else none

/-- XOR's preconditions (R176, R177): A0 = source, A1 = destination, A2 = L, A3 = destination length. -/
def State.checkXor (s : State) : Option Cause :=
  if !(s.keyset && s.ivset) then some .notConfigured
  else if s.term then some .fatalMisuse
  else if s.a3.toNat < s.a2.toNat then some .insufficientOutputSpace
  else if !inMemory s.cfg.memSize s.a0.toNat s.a2.toNat || !inMemory s.cfg.memSize s.a1.toNat s.a2.toNat then
    some .addressError
  else if partialOverlap s.a0.toNat s.a1.toNat s.a2.toNat then some .overlapError
  else none

/-- KS's preconditions (R176, R178): A1 = destination, A2 = L. -/
def State.checkKs (s : State) : Option Cause :=
  if !(s.keyset && s.ivset) then some .notConfigured
  else if s.term then some .fatalMisuse
  else if !inMemory s.cfg.memSize s.a1.toNat s.a2.toNat then some .addressError
  else none

end Sys2Proof.Machine
end

