-- ==== Sys2Proof/Machine/Permutation.lean ====
section
/-! DEFINITION. The block permutation engine (40_permutation.md). A `Lane` is one permutation engine during one Block
Transform (10_state.md R50); the transform is one atomic step (R100), so a lane exists only inside `blockTransform`. -/

namespace Sys2Proof.Machine

/-- The quarter-round `QR(a, b, c, d)` (R101). -/
def quarterRound (a b c d : Word) : Word × Word × Word × Word :=
  let a := a + b
  let d := (d ^^^ a).rotateLeft 16
  let c := c + d
  let b := (b ^^^ c).rotateLeft 12
  let a := a + b
  let d := (d ^^^ a).rotateLeft 8
  let c := c + d
  let b := (b ^^^ c).rotateLeft 7
  (a, b, c, d)

/-- `QRX(X, i, j, k, l)` (R102): the quarter-round on four words of the working array, in place. -/
def quarterRoundAt (x : StateWords) (i j k l : Fin 16) : StateWords :=
  let q := quarterRound x[i] x[j] x[k] x[l]
  (((x.set i q.1).set j q.2.1).set k q.2.2.1).set l q.2.2.2

/-- The column round (R103). -/
def columnRound (x : StateWords) : StateWords :=
  let x := quarterRoundAt x 0 4 8 12
  let x := quarterRoundAt x 1 5 9 13
  let x := quarterRoundAt x 2 6 10 14
  quarterRoundAt x 3 7 11 15

/-- The diagonal round (R104). -/
def diagonalRound (x : StateWords) : StateWords :=
  let x := quarterRoundAt x 0 5 10 15
  let x := quarterRoundAt x 1 6 11 12
  let x := quarterRoundAt x 2 7 8 13
  quarterRoundAt x 3 4 9 14

/-- The double-round (R105). -/
def doubleRound (x : StateWords) : StateWords := diagonalRound (columnRound x)

/-- One permutation lane during a Block Transform: the working array X and the double-round counter (10_state.md R50). -/
structure Lane where
  x : StateWords
  count : Nat
deriving DecidableEq, Repr

/-- A lane that a Block Transform has just loaded: X is a copy of S and no double-round is done (R110). -/
def Lane.load (s : StateWords) : Lane := { x := s, count := 0 }

/-- The lane after one more double-round (R105, R106). -/
def Lane.step (l : Lane) : Lane := { x := doubleRound l.x, count := l.count + 1 }

/-- The lane after `n` more double-rounds (R106). -/
def Lane.run : Nat → Lane → Lane
  | 0, l => l
  | n + 1, l => Lane.run n l.step

/-- The feed-forward: every working word plus the original word at its index (R107). -/
def feedForward (x s : StateWords) : StateWords := Vector.zipWith (· + ·) x s

/-- Serialisation: output byte 4i + j is byte j of word i (R109). -/
def serialise (y : StateWords) : BlockBytes :=
  Vector.ofFn fun t : Fin 64 => serByte (y[t.val / 4]'(by omega)) (t.val % 4)

/-- `Block(S, r)`, the Block Transform (R110). -/
def blockTransform (s : StateWords) (r : BitVec 8) : BlockBytes :=
  serialise (feedForward ((Lane.load s).run (r.toNat / 2)).x s)

/-- The state words for block index `c`: constants, key, counter low and high, nonce (R113, 10_state.md R23). -/
def stateWords (const : Vector Word 4) (key : Vector Word 8) (nonce : Vector Word 2) (c : BlockIndex) : StateWords :=
  #v[const[0], const[1], const[2], const[3],
     key[0], key[1], key[2], key[3], key[4], key[5], key[6], key[7],
     c.extractLsb' 0 32, c.extractLsb' 32 32, nonce[0], nonce[1]]

/-- The keystream block of the context at block index `c`: `Block(StateOf(c), ROUNDS)` (R113). -/
def Engine.blockAt (e : Engine) (c : BlockIndex) : BlockBytes :=
  blockTransform (stateWords e.const e.key e.nonce c) e.rounds

/-- The constants for a 32-byte key, "expand 32-byte k" (R114). -/
def sigma : Vector Word 4 := #v[0x61707865, 0x3320646E, 0x79622D32, 0x6B206574]

/-- The constants for a 16-byte key, "expand 16-byte k" (R114). -/
def tau : Vector Word 4 := #v[0x61707865, 0x3120646E, 0x79622D36, 0x6B206574]

end Sys2Proof.Machine
end

