-- ==== Sys2Proof/Machine/Context.lean ====
section
/-! DEFINITION. The meanings of the context state commands (41_context.md): INIT, KEYSETUP, IVSETUP, SETROUNDS, SEEK, GETCTR
and TUNE. Every meaning but INIT's stands behind the gate under FATAL (60_exceptions.md R231). -/

namespace Sys2Proof.Machine

/-- KEY[i] of `LoadKey` (R131, R115): for a 16-byte key both halves of KEY hold the 16 key bytes. -/
def keyWord (k : List Byte) (long : Bool) (i : Nat) : Word :=
  if i < 4 ∨ long then le32 k (4 * i) else le32 k (4 * (i - 4))

/-- `LoadKey(k, n)` (R131), `long` being n = 32. -/
def State.loadKey (s : State) (k : List Byte) (long : Bool) : State :=
  { s with
    key := Vector.ofFn fun i : Fin 8 => keyWord k long i
    const := if long then sigma else tau
    key256 := long
    keyset := true }

/-- `LoadNonce(v)` (R133). -/
def State.loadNonce (s : State) (v : List Byte) : State :=
  { s with nonce := #v[le32 v 0, le32 v 4], ivset := true }

/-- `SeekTo(n)` on the whole state (R130). -/
def State.seekTo (s : State) (n : BlockIndex) : State := { s with toEngine := s.toEngine.seekTo n }

/-- The context INIT constructs (R132), before it finishes. DESIGN CHOICE (log entry 23): it is one atomic step with the
completion, so an OVR raised while this INIT runs is cleared too. -/
def State.construct (s : State) : State :=
  let k := s.mem.readBytes s.a0.toNat s.a2.toNat
  let v := s.mem.readBytes s.a1.toNat 8
  let s := ((s.loadKey k (s.a2.toNat = 32)).loadNonce v).seekTo 0
  { s with rounds := Config.defaultRounds, fatal := false, ovr := false }

/-- INIT (R132). It runs while FATAL = 1 too (R231). -/
def execInit (s : State) : Result :=
  s.checked s.checkInit (s.construct.finish .ok 0 0)

/-- KEYSETUP (R131). -/
def execKeysetup (s : State) : Result :=
  s.gated <| s.checked s.checkKeysetup <|
    (s.loadKey (s.mem.readBytes s.a0.toNat s.a2.toNat) (s.a2.toNat = 32)).finish .ok 0 0

/-- IVSETUP (R133). -/
def execIvsetup (s : State) : Result :=
  s.gated <| s.checked s.checkIvsetup <|
    ((s.loadNonce (s.mem.readBytes s.a0.toNat 8)).seekTo 0).finish .ok 0 0

/-- SETROUNDS (R135). -/
def execSetrounds (r : BitVec 8) (s : State) : Result :=
  s.gated <| s.checked (checkSetrounds r) <| ({ s with rounds := r } : State).finish .ok 0 0

/-- SEEK (R136). -/
def execSeek (s : State) : Result :=
  s.gated <| .next <| (s.seekTo s.seekIndex).finish .ok 0 0

/-- GETCTR (R134). -/
def execGetctr (s : State) : Result :=
  s.gated <| .next <| s.finish .ok s.ctrLo s.ctrHi

/-- TUNE (R137). -/
def execTune (f : Bool) (s : State) : Result :=
  s.gated <| s.checked s.checkTune <|
    ({ s with parEn := f, bpc := s.a0, maxw := s.a1 } : State).finish .ok 0 0

end Sys2Proof.Machine
end

