-- ==== Sys2Proof/Machine/Keystream.lean ====
section
/-! DEFINITION. The sequential keystream engine and the meanings of XOR and KS (42_keystream.md). The architectural effect
of both commands is that of the sequential engine alone (42_keystream.md, opening; 43_parallel.md R210); the same
commands in the atomic steps of the sequencer and the workers stand in Machine/Parallel.lean. -/

namespace Sys2Proof.Machine

/-- `GenerateBlock()` (R171): the block uses the counter BEFORE the increment. EXH is set exactly when the old counter was
2^64 − 1. -/
def Engine.generateBlock (e : Engine) : Engine :=
  { e with
    outbuf := e.blockAt e.ctr
    ctr := e.ctr + 1
    exh := e.exh || e.ctr + 1 = 0
    gen := true
    next := 0 }

/-- The XOR step at offset `i` (R172): source byte XOR OUTBUF[NEXT], written to the destination, and the cursor advances.
It is taken only with NEXT < 64; at NEXT = 64 there is no buffered byte and it does nothing. -/
def Engine.xorByte (e : Engine) (src dst : Nat) (zero : Bool) (i : Nat) : Engine :=
  if h : e.next.val < 64 then
    { e with
      mem := e.mem.write (dst + i) (e.mem.sourceByte zero (src + i) ^^^ e.outbuf[e.next.val])
      next := ⟨e.next.val + 1, by omega⟩ }
  else e

/-- The exhaustion stop (R173): TERM ← 1. -/
def Engine.exhaust (e : Engine) : Engine := { e with term := true }

/-- What SeqRun returns, beside the engine it leaves (R170). -/
structure SeqResult where
  engine : Engine
  count : Nat
  cause : Cause
deriving DecidableEq, Repr

/-- `SeqRun(src, dst, i, L, Z)` (R170); the third argument is the number of bytes still to produce, L − i. -/
def seqRun (src dst : Nat) (zero : Bool) : (n i : Nat) → Engine → SeqResult
  | 0, i, e => ⟨e, i, .ok⟩
  | n + 1, i, e =>
    if e.next = 64 then
      if e.exh then ⟨e.exhaust, i, .keystreamExhausted⟩
      else seqRun src dst zero n (i + 1) (e.generateBlock.xorByte src dst zero i)
    else seqRun src dst zero n (i + 1) (e.xorByte src dst zero i)

/-- An XOR or KS that passed its checks, carried out whole (R177, R178): SeqRun from offset 0, then
`finish(cause, count, 0)`. -/
def State.generate (s : State) (src dst len : Nat) (zero : Bool) : State :=
  let r := seqRun src dst zero len 0 s.toEngine
  ({ s with toEngine := r.engine } : State).finish r.cause (BitVec.ofNat 32 r.count) 0

/-- XOR (R177). -/
def execXor (s : State) : Result :=
  s.gated <| s.checked s.checkXor <| s.generate s.a0.toNat s.a1.toNat s.a2.toNat false

/-- KS (R178): an all-zero source; A0 and A3 are ignored (R85). -/
def execKs (s : State) : Result :=
  s.gated <| s.checked s.checkKs <| s.generate 0 s.a1.toNat s.a2.toNat true

end Sys2Proof.Machine
end

