-- ==== Sys2Proof/Machine/Dispatch.lean ====
section
/-! DEFINITION. Which meaning each command has (30_encoding.md R83). -/

namespace Sys2Proof.Machine

/-- The command `i`, from its decoded word to its completion (10_state.md R41 steps 3 to 5). -/
def exec (i : Instr) (s : State) : Host.Outcome State Fault Refusal :=
  match i with
  | .init => Sys2Proof.Machine.execInit s
  | .keysetup => Sys2Proof.Machine.execKeysetup s
  | .ivsetup => Sys2Proof.Machine.execIvsetup s
  | .setrounds r => Sys2Proof.Machine.execSetrounds r s
  | .seek => Sys2Proof.Machine.execSeek s
  | .getctr => Sys2Proof.Machine.execGetctr s
  | .tune f => Sys2Proof.Machine.execTune f s
  | .xor => Sys2Proof.Machine.execXor s
  | .ks => Sys2Proof.Machine.execKs s

end Sys2Proof.Machine
end

