-- ==== Sys2Proof/Machine/Parallel.lean ====
section
/-! DEFINITION. XOR and KS in the atomic steps of 70_reset_and_hazards.md R288: the sequencer's `Run` (43_parallel.md R190)
with the parallel keystream scheduler and its workers as agents (R191 to R208). Which of the workers' enabled steps fires
is an argument, `pick`, so that every interleaving is a run (R197, R202). -/

namespace Sys2Proof.Machine

/-! ### The job of an accepted command -/

/-- The job of a command that passes its preconditions, at its start (R190). -/
def State.newJob (s : State) (src dst len : Nat) (zero : Bool) : Job :=
  { src := src, dst := dst, len := len, zero := zero, i := 0, stage := .lead, start := s.toEngine }

/-- The job the command `i` would run in this state: `none` for a command that generates no keystream, and for an XOR or
KS that is rejected (R176, R231). -/
def State.jobOf (s : State) : Instr → Option Job
  | .init => none
  | .keysetup => none
  | .ivsetup => none
  | .setrounds _ => none
  | .seek => none
  | .getctr => none
  | .tune _ => none
  | .xor =>
    if s.fatal || s.checkXor.isSome then none
    else some (s.newJob s.a0.toNat s.a1.toNat s.a2.toNat false)
  | .ks =>
    if s.fatal || s.checkKs.isSome then none
    else some (s.newJob 0 s.a1.toNat s.a2.toNat true)

/-- The command the latched word decodes to, if a command has been accepted and its word is legal (R41, R82). -/
def State.acceptedInstr (s : State) : Option Instr :=
  match s.phase with
  | .idle => none
  | .accepted w => (decode w).toOption
  | .running _ => none

/-- The generation job of the command being executed, if there is one. -/
def State.currentJob (s : State) : Option Job :=
  match s.phase with
  | .idle => none
  | .accepted _ => s.acceptedInstr.bind s.jobOf
  | .running j => some j

/-! ### The workers of a region -/

/-- The steps of the workers (R197, R199, R200). -/
inductive Move where
  /-- The admission step of chunk k (R197). -/
  | admission (k : Nat)
  /-- A block step of worker k, its Block Transform run on a permutation lane (R200, R198). -/
  | block (k lane : Nat)
  /-- The release step of worker k (R199). -/
  | release (k : Nat)
deriving DecidableEq, Repr

/-- What worker `w` may do next with `lanes` permutation lanes: a block step on any lane while it has blocks left, then its
release (R198 to R200). A lane is free between two steps, because a Block Transform is one atomic step (R100). -/
def Worker.moves (w : Worker) (lanes : Nat) : List Move :=
  if w.left = 0 then [.release w.k] else (List.range lanes).map (.block w.k)

/-- The moves that are enabled: an admission of any pending chunk while SEM > 0 (R197), and each running worker's. -/
def Region.moves (r : Region) (lanes : Nat) : List Move :=
  (if 0 < r.sem then r.pending.map .admission else []) ++ r.running.flatMap (·.moves lanes)

/-- The barrier (R203): every chunk 0 .. N−1 is done. -/
def Region.barrier (r : Region) : Bool := (List.range r.n).all r.done.contains

/-- Worker k at its creation: private copies of the context and the counter BASE + k·BPC (R200, R51). -/
def newWorker (e : Engine) (base : BlockIndex) (bpc k : Nat) : Worker :=
  { k := k, const := e.const, key := e.key, nonce := e.nonce, rounds := e.rounds
    ctr := BitVec.ofNat 64 (base.toNat + k * bpc), left := bpc }

/-- The admission step of chunk k (R197). -/
def Region.admission (r : Region) (e : Engine) (bpc k : Nat) : Region :=
  { r with sem := r.sem - 1, pending := r.pending.erase k, running := r.running ++ [newWorker e r.base bpc k] }

/-- The release step of worker k (R199). -/
def Region.release (r : Region) (k : Nat) : Region :=
  { r with sem := r.sem + 1, running := r.running.filter (·.k ≠ k), done := r.done ++ [k] }

/-- The keystream block of a worker's private state (R200). -/
def Worker.keystream (w : Worker) : BlockBytes :=
  blockTransform (stateWords w.const w.key w.nonce w.ctr) w.rounds

/-- The worker after one block (R200). -/
def Worker.advance (w : Worker) : Worker := { w with ctr := w.ctr + 1, left := w.left - 1 }

/-- The command offset of the block a worker writes next: i0 + (k·BPC + j)·64 with j = BPC − blocks left (R200). -/
def Worker.offset (w : Worker) (off bpc : Nat) : Nat := off + (w.k * bpc + (bpc - w.left)) * 64

/-- The 64 byte writes of a worker's block step (R200): for t = 0 .. 63, read the source byte, then write the destination
byte. -/
def Memory.xorBlock (m : Memory) (src dst : Nat) (zero : Bool) (ks : BlockBytes) : Memory :=
  (List.finRange 64).foldl (fun (m : Memory) (t : Fin 64) => m.write (dst + t) (m.sourceByte zero (src + t) ^^^ ks[t])) m

/-- The memory after a block step of worker `w` (R200). -/
def Worker.writeBlock (w : Worker) (j : Job) (off bpc : Nat) (m : Memory) : Memory :=
  m.xorBlock (j.src + w.offset off bpc) (j.dst + w.offset off bpc) j.zero w.keystream

/-- The region after a block step of worker k (R200): only that worker changes. -/
def Region.advance (r : Region) (k : Nat) : Region :=
  { r with running := r.running.map fun w => if w.k = k then w.advance else w }

/-- The state with the region of the running job replaced. -/
def State.withRegion (s : State) (j : Job) (r : Region) : State :=
  { s with phase := .running { j with stage := .region r } }

/-- One step of the workers. Which lane a block step runs on changes nothing (R111, R198). -/
def State.workerMove (s : State) (j : Job) (r : Region) : Move → State
  | .admission k => s.withRegion j (r.admission s.toEngine s.bpc.toNat k)
  | .release k => s.withRegion j (r.release k)
  | .block k _ =>
    match r.running.find? (·.k = k) with
    | none => s
    | some w => ({ s with mem := w.writeBlock j r.off s.bpc.toNat s.mem } : State).withRegion j (r.advance k)

/-! ### The sequencer -/

/-- The reposition after the barrier (R204): CTR past the region, NEXT = 64, GEN = 1, OUTBUF the region's last block. -/
def Engine.reposition (e : Engine) (base : BlockIndex) (blocks : Nat) : Engine :=
  { e with
    ctr := base + BitVec.ofNat 64 blocks
    next := 64
    gen := true
    outbuf := e.blockAt (base + BitVec.ofNat 64 blocks - 1) }

/-- Whether the rest of a command runs a parallel region: eligibility (R193) and the wrap-around pre-check (R195), with
`rest` bytes remaining. -/
def State.regionRuns (s : State) (rest : Nat) : Bool :=
  s.parEn && !s.exh && 64 * s.bpc.toNat < rest
    && s.ctr.toNat + rest / (64 * s.bpc.toNat) * s.bpc.toNat ≤ 2 ^ 64 - 1

/-- The region at its start (R192, R194, R196, R197). -/
def State.newRegion (s : State) (off rest : Nat) : Region :=
  { base := s.ctr, n := rest / (64 * s.bpc.toNat), off := off, sem := s.maxw.toNat
    pending := List.range (rest / (64 * s.bpc.toNat)), running := [], done := [] }

/-- The decision after the leading bytes (R190). -/
def State.plan (s : State) (j : Job) : State :=
  if s.regionRuns (j.len - j.i) then s.withRegion j (s.newRegion j.i (j.len - j.i))
  else { s with phase := .running { j with stage := .rest } }

/-- A byte XOR of the sequential engine (R172). -/
def State.byteStep (s : State) (j : Job) : State :=
  { s with
    toEngine := s.toEngine.xorByte j.src j.dst j.zero j.i
    phase := .running { j with i := j.i + 1 } }

/-- One step of SeqRun (R170), with the command's completion when it ends: a byte XOR, a GenerateBlock, the exhaustion
stop (R173), or `finish`. -/
def State.seqStep (s : State) (j : Job) : State :=
  if j.len ≤ j.i then s.finish .ok (BitVec.ofNat 32 j.len) 0
  else if s.next = 64 then
    if s.exh then ({ s with toEngine := s.toEngine.exhaust } : State).finish .keystreamExhausted (BitVec.ofNat 32 j.i) 0
    else { s with toEngine := s.toEngine.generateBlock }
  else s.byteStep j

/-- One step of a parallel region: the reposition once the barrier is reached (R203, R204), else the picked one of the
enabled moves. -/
def State.regionStep (s : State) (j : Job) (r : Region) (pick : Nat) : State :=
  if r.barrier then
    { s with
      toEngine := s.toEngine.reposition r.base (r.n * s.bpc.toNat)
      phase := .running { j with i := j.i + r.n * (64 * s.bpc.toNat), stage := .rest } }
  else match (r.moves s.cfg.numLanes)[pick % (r.moves s.cfg.numLanes).length]? with
    | none => s
    | some m => s.workerMove j r m

/-- One atomic step of a running job (R190, R288). -/
def State.jobStep (s : State) (j : Job) (pick : Nat) : State :=
  match j.stage with
  | .lead => if j.i < j.len ∧ s.next ≠ 64 then s.byteStep j else s.plan j
  | .region r => s.regionStep j r pick
  | .rest => s.seqStep j

end Sys2Proof.Machine
end

