-- ==== Sys2Proof/Machine/HostPort.lean ====
section
/-! DEFINITION. What the host can do: the register window (10_state.md R40 to R48), the buffer memory outside a running
command (70_reset_and_hazards.md R285), and reset (R260, R261). -/

namespace Sys2Proof.Machine

/-- A half-open range of buffer memory: `(address, length)`. -/
abbrev Range := Nat × Nat

/-- Whether an address lies in a range. -/
def inRange (a : Nat) (r : Range) : Bool := r.1 ≤ a && a < r.1 + r.2

/-- The key and nonce ranges a context command reads, none if its checks fail (R285, R67, R131 to R133). -/
def State.contextReads (s : State) : Instr → List Range
  | .init => if s.checkInit.isSome then [] else [(s.a0.toNat, s.a2.toNat), (s.a1.toNat, 8)]
  | .keysetup => if s.fatal || s.checkKeysetup.isSome then [] else [(s.a0.toNat, s.a2.toNat)]
  | .ivsetup => if s.fatal || s.checkIvsetup.isSome then [] else [(s.a0.toNat, 8)]
  | .setrounds _ => []
  | .seek => []
  | .getctr => []
  | .tune _ => []
  | .xor => []
  | .ks => []

/-- The ranges the running command reads: key, nonce and source (R285). -/
def State.readRanges (s : State) : List Range :=
  (match s.acceptedInstr with
    | none => []
    | some i => s.contextReads i)
  ++ (match s.currentJob with
    | none => []
    | some j => if j.zero then [] else [(j.src, j.len)])

/-- The range the running command writes: the destination (R285). -/
def State.writeRanges (s : State) : List Range :=
  match s.currentJob with
  | none => []
  | some j => [(j.dst, j.len)]

/-- Whether the host must not read the byte now (R285). -/
def State.hostReadForbidden (s : State) (a : Nat) : Bool := s.writeRanges.any (inRange a)

/-- Whether the host must not write the byte now (R285). -/
def State.hostWriteForbidden (s : State) (a : Nat) : Bool := (s.readRanges ++ s.writeRanges).any (inRange a)

/-! ### Reset -/

/-- The byte a reset leaves at an address of the abandoned command's destination range: the value from before the command
or the one the command would have written, as the free value decides (R261). -/
def Job.abandonedByte (j : Job) (draw : Nat) (a : Nat) : Byte :=
  if Config.abandonedByteWritten draw a then (seqRun j.src j.dst j.zero j.len 0 j.start).engine.mem.read a
  else j.start.mem.read a

/-- Buffer memory after a reset: untouched (R260), but for the destination range of an abandoned command (R261). -/
def State.memAfterReset (s : State) : Memory :=
  match s.currentJob with
  | none => s.mem
  | some j => s.mem.writeBytes j.dst ((List.range j.len).map fun t => j.abandonedByte s.draws (j.dst + t))

/-- The memories an incoherent platform may still show after the next change of buffer memory (R78). -/
def State.remember (s : State) : List Memory := s.mem :: s.past

/-- The reset input (R260, R261): every register at its reset value. The parameters, the inputs still to come, what the
last host read returned and the platform's view of memory are not registers of the core. -/
def State.resetCore (s : State) : State :=
  { State.reset with
    mem := s.memAfterReset
    cfg := s.cfg
    past := s.remember
    agenda := s.agenda
    rdata := s.rdata
    draws := s.draws + 1 }

/-! ### Register window -/

/-- A host register access the spec defines: 32 bits wide, at an offset 0x00, 0x04, .., 0x3C (R48, R40). -/
def registerAccessOk (offset width : Nat) : Bool := width = 32 && offset % 4 = 0 && offset < 0x40

/-- The registers a host write can change: CMD and A0 .. A3 (R40, R48). -/
def hostWritable (offset : Nat) : Bool := offset = 0x00 || offset = 0x04 || offset = 0x08 || offset = 0x0C || offset = 0x10

/-- The command word `w` is accepted: latched, with BUSY ← 1 (R41 steps 1 and 2). -/
def State.accept (s : State) (w : Word) : State := { s with phase := .accepted w, past := s.remember }

/-- A host write to a register while BUSY = 0: CMD starts a command (R41), A0 .. A3 store the value (R42), every other
offset ignores it (R43 to R47). -/
def State.storeRegister (s : State) (offset : Nat) (v : Word) : State :=
  match offset with
  | 0x00 => s.accept v
  | 0x04 => { s with a0 := v }
  | 0x08 => { s with a1 := v }
  | 0x0C => { s with a2 := v }
  | 0x10 => { s with a3 := v }
  | _ => s

/-- A host write to a register (R41, R42, R48): while BUSY = 1 a write to a host-writable register is dropped and sets
OVR. -/
def State.writeRegister (s : State) (offset : Nat) (v : Word) : State :=
  if s.busy && hostWritable offset then { s with ovr := true } else s.storeRegister offset v

/-! ### One host access -/

/-- What a host read of a byte of buffer memory returns: the byte, or, where PLATFORM_COHERENT is false, the byte or one of
its past values, as the free value decides (R72, R78; 93_implementation_defined.md U10). -/
def State.hostByte (s : State) (a : Nat) : Byte :=
  if s.cfg.platformCoherent then s.mem.read a
  else (s.remember.map (·.read a)).getD (Config.staleByteChoice s.draws a % s.remember.length) (s.mem.read a)

/-- A host access. A value read is kept in `rdata`. -/
def State.hostAccess (s : State) : HostAccess → Result
  | .readReg offset width =>
    if registerAccessOk offset width then .next { s with rdata := s.readRegister offset }
    else .refused .hostRegisterAccessShape
  | .writeReg offset width v =>
    if registerAccessOk offset width then .next (s.writeRegister offset v)
    else .refused .hostRegisterAccessShape
  | .readMem a =>
    if s.cfg.memSize ≤ a then .fault .hostAddressOutsideMemory
    else if s.hostReadForbidden a then .fault .hostTouchesRunningRange
    else .next { s with
      rdata := (s.hostByte a).setWidth 32
      draws := if s.cfg.platformCoherent then s.draws else s.draws + 1 }
  | .writeMem a b =>
    if s.cfg.memSize ≤ a then .fault .hostAddressOutsideMemory
    else if s.hostWriteForbidden a then .fault .hostTouchesRunningRange
    else .next { s with mem := s.mem.write a b, past := s.remember }
  | .reset => .next s.resetCore

/-! ### The host's address space -/

/-- Where the platform routes an access at an address of the host's space (R68): the register window's 64 bytes at REG_BASE,
whatever the width; the bytes of buffer memory at BUF_BASE, one at a time (log entry 12). -/
def BusAccess.route (c : Config) : BusAccess → Option HostAccess
  | .read addr width =>
    if c.regBase ≤ addr ∧ addr < c.regBase + 0x40 then some (.readReg (addr - c.regBase) width)
    else if c.bufBase ≤ addr ∧ addr < c.bufBase + c.memSize ∧ width = 8 then some (.readMem (addr - c.bufBase))
    else none
  | .write addr width v =>
    if c.regBase ≤ addr ∧ addr < c.regBase + 0x40 then some (.writeReg (addr - c.regBase) width v)
    else if c.bufBase ≤ addr ∧ addr < c.bufBase + c.memSize ∧ width = 8 then
      some (.writeMem (addr - c.bufBase) (v.setWidth 8))
    else none

/-- A host access at an address of the host's space. -/
def State.busAccess (s : State) (b : BusAccess) : Result :=
  match b.route s.cfg with
  | some a => s.hostAccess a
  | none => .refused .busAccessNotRouted

/-- The platform makes the core's writes visible (R78): the host sees no value older than the present one any more. The
present memory is kept, because a running command may go on to change it. -/
def State.syncPlatform (s : State) : State := { s with past := [s.mem] }

end Sys2Proof.Machine
end

