-- ==== Sys2Proof/Machine/Sequencer.lean ====
section
/-! DEFINITION. What the core does when it moves (10_state.md R41, 70_reset_and_hazards.md R288), and one turn of the
machine. -/

namespace Sys2Proof.Machine

/-- R41 steps 3 to 5 for a latched word: decode it and carry the command out (R82, R232, R233). -/
def State.runWord (s : State) (w : Word) : Result :=
  match decode w with
  | .error _ => s.illegalCommand
  | .ok i => exec i s

/-- The core moves: nothing while idle (R262); an accepted command is carried out whole; a running one takes its next
atomic step. -/
def State.coreMove (s : State) : Result :=
  match s.phase with
  | .idle => .next s
  | .accepted w => s.runWord w
  | .running j => .next (s.jobStep j 0)

/-- The core takes ONE atomic step of R288: an accepted XOR or KS that passes its checks begins to run; any other accepted
command is one step; a running one takes the picked step. DESIGN CHOICE (log entry 23): so a host write while an INIT runs
lands before the step that clears OVR. -/
def State.fineMove (s : State) (pick : Nat) : Result :=
  match s.phase with
  | .idle => .next s
  | .accepted w =>
    match s.currentJob with
    | none => s.runWord w
    | some j => .next { s with phase := .running j }
  | .running j => .next (s.jobStep j pick)

/-- One turn. -/
def State.turn (s : State) : Turn → Result
  | .host a => s.hostAccess a
  | .bus b => s.busAccess b
  | .sync => .next s.syncPlatform
  | .core => s.coreMove
  | .fine pick => s.fineMove pick

/-- The state in which the next turn is the core's, with the word of an instruction latched as the accepted command. -/
def State.latchWord (s : State) (w : Word) : State :=
  { s.accept w with agenda := .core :: s.agenda }

end Sys2Proof.Machine
end

