-- ==== Sys2Proof/Machine/Step.lean ====
section
/-! DEFINITION. One step of the machine: the oldest turn of the agenda; with none listed, the core moves. -/

namespace Sys2Proof.Machine

/-- One step. -/
def step (s : State) : Host.Outcome State Fault Refusal :=
  match s.agenda with
  | [] => s.coreMove
  | t :: rest => ({ s with agenda := rest } : State).turn t

/-- `s` with the word of an instruction latched as the accepted command (R41 steps 1 and 2), so that the very next step
decodes and runs it. A command reaches the machine only by the host's write to CMD (R21; log entry 6). -/
def State.withFetchWord (s : State) (nbits w : Nat) : State := s.latchWord (tableWord nbits w)

end Sys2Proof.Machine
end

