-- ==== Sys2Proof/Machine/Assembler.lean ====
section
/-! DEFINITION. The assembler syntax and the host write sequences (30_encoding.md R95 to R98): a command line becomes the
writes of the argument registers the command reads, then the write of its word to CMD. -/

namespace Sys2Proof.Machine

/-- The nine commands of the syntax, in the operand order of R95. -/
inductive AsmCommand where
  | init (keyaddr nonceaddr keylen noncelen : Nat)
  | keysetup (keyaddr keylen : Nat)
  | ivsetup (nonceaddr noncelen : Nat)
  | setrounds (r : Nat)
  | seek (n : Nat)
  | getctr
  | tune (par bpc maxw : Nat)
  | xor (src dst len dstlen : Nat)
  | ks (dst len : Nat)
deriving DecidableEq, Repr

/-- The pseudo-commands (R97). -/
inductive AsmPseudo where
  | new (keyaddr nonceaddr keylen noncelen : Nat)
  | encrypt (src dst len dstlen : Nat)
  | decrypt (src dst len dstlen : Nat)
  | xorkeystream (src dst len : Nat)
  | encryptip (buf len : Nat)
  | keystream (dst len : Nat)
  | read (dst len : Nat)
deriving DecidableEq, Repr

/-- The expansion of a pseudo-command (R97). -/
def AsmPseudo.expand : AsmPseudo → AsmCommand
  | .new ka na kl nl => .init ka na kl nl
  | .encrypt s d l dl => .xor s d l dl
  | .decrypt s d l dl => .xor s d l dl
  | .xorkeystream s d l => .xor s d l l
  | .encryptip b l => .xor b b l l
  | .keystream d l => .ks d l
  | .read d l => .ks d l

/-- One line of a program (R95, R97). -/
inductive Asm where
  | command (c : AsmCommand)
  | pseudo (p : AsmPseudo)
deriving DecidableEq, Repr

/-- The command a line stands for (R97). -/
def Asm.expand : Asm → AsmCommand
  | .command c => c
  | .pseudo p => p.expand

/-- Every operand fits its field (R95: otherwise it is an assembly error). -/
def AsmCommand.wellFormed : AsmCommand → Bool
  | .init ka na kl nl => fitsArgument ka && fitsArgument na && fitsArgument kl && fitsArgument nl
  | .keysetup ka kl => fitsArgument ka && fitsArgument kl
  | .ivsetup na nl => fitsArgument na && fitsArgument nl
  | .setrounds r => fitsRounds r
  | .seek n => fitsBlockIndex n
  | .getctr => true
  | .tune p b m => fitsParallelFlag p && fitsArgument b && fitsArgument m
  | .xor s d l dl => fitsArgument s && fitsArgument d && fitsArgument l && fitsArgument dl
  | .ks d l => fitsArgument d && fitsArgument l

/-- What a line assembles to: its command, and the argument registers it writes (R85; an ignored register is not
written, R96). -/
structure AsmLine where
  instr : Instr
  a0 : Option Word
  a1 : Option Word
  a2 : Option Word
  a3 : Option Word
deriving DecidableEq, Repr

/-- A 32-bit argument value. -/
def argument (n : Nat) : Option Word := some (BitVec.ofNat 32 n)

/-- The command and argument registers of a line (R85, R86, R95). -/
def AsmCommand.line : AsmCommand → AsmLine
  | .init ka na kl nl => ⟨.init, argument ka, argument na, argument kl, argument nl⟩
  | .keysetup ka kl => ⟨.keysetup, argument ka, none, argument kl, none⟩
  | .ivsetup na nl => ⟨.ivsetup, argument na, none, argument nl, none⟩
  | .setrounds r => ⟨.setrounds (BitVec.ofNat 8 r), none, none, none, none⟩
  | .seek n => ⟨.seek, argument n, argument (n / 2 ^ 32), none, none⟩
  | .getctr => ⟨.getctr, none, none, none, none⟩
  | .tune p b m => ⟨.tune (p = 1), argument b, argument m, none, none⟩
  | .xor s d l dl => ⟨.xor, argument s, argument d, argument l, argument dl⟩
  | .ks d l => ⟨.ks, none, argument d, argument l, none⟩

/-- The write of one argument register, if the command reads it. -/
def argumentWrite (offset : Nat) : Option Word → List HostAccess
  | none => []
  | some v => [.writeReg offset 32 v]

/-- The host write sequence (R96 steps 1 and 2): the argument registers in the order A0, A1, A2, A3, then CMD. -/
def AsmLine.writes (l : AsmLine) : List HostAccess :=
  argumentWrite 0x04 l.a0 ++ argumentWrite 0x08 l.a1 ++ argumentWrite 0x0C l.a2 ++ argumentWrite 0x10 l.a3
    ++ [.writeReg 0x00 32 (encode l.instr)]

/-- The host write sequence of a line, `none` for an assembly error (R95, R96). -/
def Asm.assemble (a : Asm) : Option (List HostAccess) :=
  if a.expand.wellFormed then some a.expand.line.writes else none

/-- A line as turns of the machine: the host's writes, the command, and the host's reads of STATUS, RES0 and RES1 once BUSY
is 0 (R96 step 3); `none` for an assembly error (R95). -/
def Asm.turns (a : Asm) : Option (List Turn) :=
  a.assemble.map fun writes =>
    writes.map .host ++ [.core, .host (.readReg 0x14 32), .host (.readReg 0x18 32), .host (.readReg 0x1C 32)]

/-! ### The text of a line (R95, R98)

A line is a list of characters. Blanks are spaces and tabs and stand freely around the mnemonic and the operands; letters
of a mnemonic are capital; a line with nothing but a comment is no command (log entry 22). -/

/-- A space or a tab. -/
def isBlank (c : Char) : Bool := c = ' ' || c = '\t'

/-- The text without the blanks around it. -/
def trimBlanks (l : List Char) : List Char := ((l.dropWhile isBlank).reverse.dropWhile isBlank).reverse

/-- The line without its comment: `;` to the end (R95). -/
def stripComment (l : List Char) : List Char := l.takeWhile (· ≠ ';')

/-- The fields between the commas. -/
def splitCommas : List Char → List (List Char)
  | [] => [[]]
  | c :: cs =>
    match splitCommas cs with
    | [] => [[c]]
    | f :: fs => if c = ',' then [] :: f :: fs else (c :: f) :: fs

/-- The value of a digit, decimal or hexadecimal. -/
def digitValue (c : Char) : Option Nat :=
  if '0' ≤ c && c ≤ '9' then some (c.toNat - 48)
  else if 'a' ≤ c && c ≤ 'f' then some (c.toNat - 87)
  else if 'A' ≤ c && c ≤ 'F' then some (c.toNat - 55)
  else none

/-- Digits in a base, most significant first, after a value already read. -/
def readDigits (base : Nat) : List Char → Nat → Option Nat
  | [], n => some n
  | c :: cs, n =>
    match digitValue c with
    | none => none
    | some d => if d < base then readDigits base cs (n * base + d) else none

/-- A number: `0x` hexadecimal, else decimal (R95). -/
def readNumber : List Char → Option Nat
  | [] => none
  | '0' :: 'x' :: c :: cs => readDigits 16 (c :: cs) 0
  | c :: cs => readDigits 10 (c :: cs) 0

/-- The operands of a line, separated by commas; none at all for an empty text. -/
def readOperands (l : List Char) : Option (List Nat) :=
  if trimBlanks l = [] then some [] else ((splitCommas l).map fun f => readNumber (trimBlanks f)).foldr
    (fun n ns => n.bind fun n => ns.map (n :: ·)) (some [])

/-- The command or pseudo-command of a mnemonic with its operands in R95's and R97's order; `none` for another mnemonic or
another number of operands. -/
def asmOf (mnemonic : String) : List Nat → Option Asm
  | [] => if mnemonic = "GETCTR" then some (.command .getctr) else none
  | [a] =>
    if mnemonic = "SETROUNDS" then some (.command (.setrounds a))
    else if mnemonic = "SEEK" then some (.command (.seek a))
    else none
  | [a, b] =>
    if mnemonic = "KEYSETUP" then some (.command (.keysetup a b))
    else if mnemonic = "IVSETUP" then some (.command (.ivsetup a b))
    else if mnemonic = "KS" then some (.command (.ks a b))
    else if mnemonic = "ENCRYPTIP" then some (.pseudo (.encryptip a b))
    else if mnemonic = "KEYSTREAM" then some (.pseudo (.keystream a b))
    else if mnemonic = "READ" then some (.pseudo (.read a b))
    else none
  | [a, b, c] =>
    if mnemonic = "TUNE" then some (.command (.tune a b c))
    else if mnemonic = "XORKEYSTREAM" then some (.pseudo (.xorkeystream a b c))
    else none
  | [a, b, c, d] =>
    if mnemonic = "INIT" then some (.command (.init a b c d))
    else if mnemonic = "XOR" then some (.command (.xor a b c d))
    else if mnemonic = "NEW" then some (.pseudo (.new a b c d))
    else if mnemonic = "ENCRYPT" then some (.pseudo (.encrypt a b c d))
    else if mnemonic = "DECRYPT" then some (.pseudo (.decrypt a b c d))
    else none
  | _ => none

/-- What the text of a line is. -/
inductive LineText where
  /-- Nothing but blanks and a comment. -/
  | blank
  | line (a : Asm)
  /-- An assembly error: no such mnemonic, another number of operands, an operand that is no number. -/
  | error
deriving DecidableEq, Repr

/-- The reading of a line's text (R95, R97, R98). -/
def readLine (l : List Char) : LineText :=
  let l := trimBlanks (stripComment l)
  if l = [] then .blank
  else
    match (readOperands (l.dropWhile (!isBlank ·))).bind (asmOf (String.ofList (l.takeWhile (!isBlank ·)))) with
    | none => .error
    | some a => .line a

end Sys2Proof.Machine
end

