-- ==== Sys2Proof/Safety.lean ====
section
/-! DEFINITION. The terms the statements about the machine are written in: the invariant of every reachable state (10_state.md
R39 and what the parallel scheduler's rules add), the keystream position (42_keystream.md R174) and the outcome of a rejection. -/

namespace Sys2Proof.Machine

/-! ### Whose turn it is -/

/-- The next turn is the core's: the agenda is empty or its oldest entry is a move of the core. -/
def State.coreToMove (s : State) : Prop :=
  s.agenda = [] ∨ s.agenda.head? = some .core ∨ ∃ pick, s.agenda.head? = some (.fine pick)

/-- The state in which the oldest turn has been taken off the agenda. -/
def State.nextTurn (s : State) : State := { s with agenda := s.agenda.tail }

/-- `n` steps, stopping at the first fault or refusal. -/
def steps : Nat → State → Result
  | 0, s => .next s
  | n + 1, s =>
    match step s with
    | .next t => steps n t
    | .fault f => .fault f
    | .refused r => .refused r

/-! ### Outcomes of a command -/

/-- What `reject(cause)` leaves (R229): CAUSE, RES0 = RES1 = 0 and FATAL = 1, BUSY = 0, and all else as it was. -/
def State.rejectedWith (s : State) (c : Cause) : State :=
  { s with cause := c, res0 := 0, res1 := 0, fatal := true, phase := .idle }

/-- The causes each command can end with (R226), apart from IllegalCommand, which a malformed word ends with. -/
def possibleCauses : Instr → List Cause
  | .init => [.ok, .invalidKeyLength, .invalidNonceLength, .addressError]
  | .keysetup => [.ok, .invalidKeyLength, .addressError]
  | .ivsetup => [.ok, .invalidNonceLength, .addressError]
  | .setrounds _ => [.ok, .invalidRoundCount]
  | .seek => [.ok]
  | .getctr => [.ok]
  | .tune _ => [.ok, .invalidTuning]
  | .xor => [.ok, .notConfigured, .fatalMisuse, .insufficientOutputSpace, .addressError, .overlapError, .keystreamExhausted]
  | .ks => [.ok, .notConfigured, .fatalMisuse, .addressError, .keystreamExhausted]

/-! ### The keystream -/

/-- P, the absolute position of the next keystream byte: 64·EC − 64 + NEXT with EC = CTR + 2^64·EXH (R174). -/
def Engine.position (e : Engine) : Int :=
  64 * ((e.ctr.toNat : Int) + 2 ^ 64 * (if e.exh then 1 else 0)) - 64 + (e.next.val : Int)

/-- The bytes the engine can still produce: those buffered, and, unless EXH = 1, 64 for every block index from CTR to
2^64 − 1 (R170, R171, R173). -/
def Engine.capacity (e : Engine) : Nat :=
  (64 - e.next.val) + (if e.exh then 0 else 64 * (2 ^ 64 - e.ctr.toNat))

/-- The keystream byte `t` bytes ahead: the buffered bytes first, then the blocks from CTR on (R174, R138). -/
def Engine.streamByte (e : Engine) (t : Nat) : Byte :=
  if h : e.next.val + t < 64 then e.outbuf[e.next.val + t]
  else (e.blockAt (e.ctr + BitVec.ofNat 64 ((e.next.val + t) / 64 - 1)))[(e.next.val + t) % 64]'(by omega)

/-- The blocks the engine generates to produce `len` bytes (R170). -/
def Engine.blocksFor (e : Engine) (len : Nat) : Nat := (e.next.val + len - 1) / 64

/-! ### The invariant -/

/-- The clauses of R39 about ROUNDS, TERM, EXH and CTR; NEXT ≤ 64 holds by its type. -/
structure Engine.RegsOk (e : Engine) : Prop where
  rounds : roundsOk e.rounds = true
  termExh : e.term = true → e.exh = true
  exhCtr : e.exh = true → e.ctr = 0

/-- Worker `w` of a region: its private copies are the context's, its counter is BASE + k·BPC plus the blocks it has done
(R51, R200). -/
structure Worker.Ok (w : Worker) (e : Engine) (base bpc : Nat) : Prop where
  const : w.const = e.const
  key : w.key = e.key
  nonce : w.nonce = e.nonce
  rounds : w.rounds = e.rounds
  left : w.left ≤ bpc
  ctr : w.ctr.toNat = base + w.k * bpc + (bpc - w.left)

/-- A region of job `j` (R192 to R199): it lies inside the command's range and below block 2^64 − 1, every chunk is
pending, running or done, and exactly one of them, and the running workers hold the admission slots SEM lacks. -/
structure Region.Ok (r : Region) (j : Job) (s : State) : Prop where
  next : s.next = 64
  exh : s.exh = false
  base : r.base = s.ctr
  chunks : 1 ≤ r.n
  noWrap : r.base.toNat + r.n * s.bpc.toNat ≤ 2 ^ 64 - 1
  off : r.off = j.i
  inside : r.off + r.n * (64 * s.bpc.toNat) ≤ j.len
  slots : r.sem + r.running.length = s.maxw.toNat
  partition : (r.pending ++ (r.running.map (·.k) ++ r.done)).Perm (List.range r.n)
  workers : ∀ w ∈ r.running, w.Ok s.toEngine r.base.toNat s.bpc.toNat

/-- A running job: the preconditions of R176 held at its start, and its registers are those it started with wherever the
command has not changed them. -/
structure Job.Ok (j : Job) (s : State) : Prop where
  configured : s.keyset = true ∧ s.ivset = true
  fatal : s.fatal = false
  term : s.term = false ∧ j.start.term = false
  start : j.start.RegsOk
  const : s.const = j.start.const
  key : s.key = j.start.key
  nonce : s.nonce = j.start.nonce
  rounds : s.rounds = j.start.rounds
  word : j.len < 2 ^ 32
  reached : j.i ≤ j.len
  dst : inMemory s.cfg.memSize j.dst j.len = true
  src : j.zero = false → inMemory s.cfg.memSize j.src j.len = true ∧ partialOverlap j.src j.dst j.len = false
  region : ∀ r, j.stage = .region r → r.Ok j s

/-- The invariant of every reachable state: R39, the canonical form and the bounds of the buffer memory, and a running job
in order. -/
structure State.Inv (s : State) : Prop where
  memWf : s.mem.wf
  memBound : ∀ c ∈ s.mem, c.1 < s.cfg.memSize
  cfg : s.cfg.ok
  regs : s.toEngine.RegsOk
  tuning : s.bpc ≠ 0 ∧ s.maxw ≠ 0
  /-- No block is generated before construction (R176), so GEN = EXH = 0 until then. -/
  unconfigured : s.keyset = false ∨ s.ivset = false → s.gen = false ∧ s.exh = false
  job : ∀ j, s.phase = .running j → j.Ok s

/-! ### What the host cannot see -/

/-- Two states that differ at most in the registers no host read shows: CONST, KEY, NONCE and OUTBUF (R52). -/
def State.differsInSecretsOnly (s u : State) : Prop :=
  u = { s with const := u.const, key := u.key, nonce := u.nonce, outbuf := u.outbuf }

/-- Engines that differ at most in the secret registers and in the bytes of buffer memory. -/
def Engine.sameButSecrets (e f : Engine) : Prop :=
  f = { e with const := f.const, key := f.key, nonce := f.nonce, outbuf := f.outbuf, mem := f.mem }

/-- Workers that differ at most in their private copies of CONST, KEY and NONCE (R51, R52). -/
def Worker.sameButSecrets (w v : Worker) : Prop := v = { w with const := v.const, key := v.key, nonce := v.nonce }

/-- Stages with the same scheduler state, their workers differing at most in secrets. -/
def Stage.sameButSecrets : Stage → Stage → Prop
  | .lead, .lead => True
  | .region r, .region q => q = { r with running := q.running } ∧ List.Forall₂ Worker.sameButSecrets r.running q.running
  | .rest, .rest => True
  | _, _ => False

/-- Jobs that differ at most in secrets and bytes. -/
def Job.sameButSecrets (j k : Job) : Prop :=
  k = { j with stage := k.stage, start := k.start } ∧ j.stage.sameButSecrets k.stage ∧ j.start.sameButSecrets k.start

/-- Phases that differ at most in secrets and bytes. -/
def Phase.sameButSecrets : Phase → Phase → Prop
  | .idle, .idle => True
  | .accepted w, .accepted v => w = v
  | .running j, .running k => j.sameButSecrets k
  | _, _ => False

/-- Two states that differ at most in the secret registers, the workers' copies of them, the bytes of buffer memory, present
and past, and what the last host read returned. -/
def State.sameButSecrets (s u : State) : Prop :=
  u = { s with toEngine := u.toEngine, phase := u.phase, past := u.past, rdata := u.rdata } ∧
    s.toEngine.sameButSecrets u.toEngine ∧ s.phase.sameButSecrets u.phase

/-- Outcomes of the same kind: next states that differ at most in secrets and bytes, or the same fault or refusal. -/
def sameOutcome : Result → Result → Prop
  | .next t, .next v => t.sameButSecrets v
  | .fault f, .fault g => f = g
  | .refused q, .refused r => q = r
  | _, _ => False

/-! ### Assembler lines -/

/-- An argument register after a line: the number of its operand, or its old value where the command ignores it (R96). -/
def argumentIs (operand : Option Nat) (old new : Word) : Prop :=
  match operand with
  | none => new = old
  | some n => new.toNat = n

/-- `t` is `s` with the operands in A0 .. A3 and the command word, as a number, accepted (R85, R96). -/
def State.startedFrom (t s : State) (a0 a1 a2 a3 : Option Nat) (word : Nat) : Prop :=
  argumentIs a0 s.a0 t.a0 ∧ argumentIs a1 s.a1 t.a1 ∧ argumentIs a2 s.a2 t.a2 ∧ argumentIs a3 s.a3 t.a3 ∧
    ∃ w : Word, w.toNat = word ∧ t.phase = .accepted w

end Sys2Proof.Machine
end

