-- ==== Sys2Proof/Certificates/Slice0/Obligations.lean ====
section
/-! DEFINITION. The statements for the provers. Each docstring names the rule of spec/ it formalises. Statements that read
buffer memory after a write assume its canonical form `Memory.wf`, which every step keeps (`EveryStepKeepsTheInvariant`). -/

open Sys2Proof Sys2Proof.Machine

/-! ### Encoding -/

/-- Words written out from R81 and R83 (95_test_vectors.md V-ENC-1) decode to the commands they stand for. -/
def Obligations.CommandWordsDecodeToTheirCommands : Prop :=
  decode 0x00000001 = .ok .init ∧ decode 0x00000002 = .ok .keysetup ∧ decode 0x00000003 = .ok .ivsetup ∧
  decode 0x000C0004 = .ok (.setrounds 12) ∧ decode 0x00FF0004 = .ok (.setrounds 255) ∧
  decode 0x00000005 = .ok .seek ∧ decode 0x00000006 = .ok .getctr ∧ decode 0x00000007 = .ok (.tune false) ∧
  decode 0x00000107 = .ok (.tune true) ∧ decode 0x00000008 = .ok .xor ∧ decode 0x00000009 = .ok .ks

/-- Decode and encode agree, both ways: a word decodes to a command exactly when it is that command's word (R82, R83). -/
def Obligations.DecodeAndEncodeAgree : Prop :=
  ∀ (i : Instr) (w : Word), decode w = .ok i ↔ w = encode i

/-- R84: the words that do not decode, in arithmetic on the word. -/
def Obligations.IllegalWordsAreExactlyTheFourCases : Prop :=
  ∀ w : Word, (∃ e, decode w = .error e) ↔
    ((w.toNat % 256 = 0 ∨ 0x0A ≤ w.toNat % 256) ∨
     (w.toNat / 2 ^ 9 % 2 ^ 7 ≠ 0 ∨ w.toNat / 2 ^ 24 ≠ 0) ∨
     (w.toNat / 2 ^ 8 % 2 = 1 ∧ w.toNat % 256 ≠ 0x07) ∨
     (w.toNat / 2 ^ 16 % 256 ≠ 0 ∧ w.toNat % 256 ≠ 0x04))

/-- R83: exactly one row of the opcode map selects a legal word, that of its command, and no row selects an illegal one;
the free bits of SETROUNDS are IMM8 = W[23:16], the free bit of TUNE is F = W[8]. -/
def Obligations.OpcodeRowsSelectExactlyTheLegalWords : Prop :=
  ∀ w : Word,
    (∀ i, decode w = .ok i → (opcodeRows.filter (·.selects w)).map (·.mnemonic) = [i.mnemonic]) ∧
    (∀ e, decode w = .error e → ∀ row ∈ opcodeRows, row.selects w = false) ∧
    (∀ r, decode w = .ok (.setrounds r) → r.toNat = w.toNat / 2 ^ 16 % 256) ∧
    (∀ f, decode w = .ok (.tune f) → (f = true ↔ w.toNat / 2 ^ 8 % 2 = 1))

/-! ### Steps -/

/-- A step carries out the accepted command (R41 step 3): when the latched word decodes to `i`, a step in which the core
moves is `exec i`, in the state whose agenda has lost the turn taken. -/
def Obligations.StepCarriesOutTheAcceptedCommand : Prop :=
  (∀ (s : State) (w : Word) (i : Instr), s.phase = .accepted w → decode w = .ok i →
    (s.agenda = [] ∨ s.agenda.head? = some .core) → step s = exec i s.nextTurn) ∧
  (∀ (s : State) (nbits w : Nat) (i : Instr), decodeTableWord nbits w = some i →
    step (s.withFetchWord nbits w) = exec i { s with phase := .accepted (tableWord nbits w), past := s.mem :: s.past })

/-- R231: while FATAL = 1 a written command word raises BUSY as always; then, whichever way the core moves, a legal INIT is
executed and every other word, illegal ones included, is rejected without effect: only BUSY falls. -/
def Obligations.OnlyInitRunsUnderFatal : Prop :=
  (∀ (s : State) (v : Word) (rest : List Turn), s.fatal = true → s.phase = .idle →
    s.agenda = .host (.writeReg 0x00 32 v) :: rest →
    ∃ t, step s = .next t ∧ t = { s with phase := .accepted v, agenda := rest, past := t.past } ∧ t.busy = true) ∧
  (∀ (s : State) (w : Word), s.fatal = true → s.phase = .accepted w → s.coreToMove →
    (decode w = .ok .init → step s = exec .init s.nextTurn) ∧
    (decode w ≠ .ok .init → step s = .next { s.nextTurn with phase := .idle }))

/-- R232: an illegal word ends with `reject(IllegalCommand)` if FATAL = 0, and without effect if FATAL = 1. -/
def Obligations.IllegalWordEndsWithIllegalCommand : Prop :=
  ∀ (s : State) (w : Word) (e : Illegal), s.phase = .accepted w → decode w = .error e → s.coreToMove →
    (s.fatal = false → step s = .next (s.nextTurn.rejectedWith .illegalCommand)) ∧
    (s.fatal = true → step s = .next { s.nextTurn with phase := .idle })

/-- A host write to CMD while BUSY = 0 latches the word and raises BUSY; CMD reads 0 (R41 steps 1 and 2). Buffer memory
joins the past memories an incoherent platform may show (log entry 21). -/
def Obligations.CmdWriteLatchesTheWordAndRaisesBusy : Prop :=
  ∀ (s : State) (v : Word) (rest : List Turn), s.phase = .idle → s.agenda = .host (.writeReg 0x00 32 v) :: rest →
    ∃ t, step s = .next t ∧ t = { s with phase := .accepted v, agenda := rest, past := s.mem :: s.past } ∧
      t.busy = true ∧ t.readRegister 0x00 = 0

/-- R48 and R35 on a host write while BUSY = 1: the register and the running command are unchanged, and OVR is set. -/
def Obligations.HostWriteWhileBusyIsDroppedAndSetsOvr : Prop :=
  ∀ (s : State) (offset : Nat) (v : Word) (rest : List Turn), s.phase ≠ .idle →
    offset ∈ [0x00, 0x04, 0x08, 0x0C, 0x10] → s.agenda = .host (.writeReg offset 32 v) :: rest →
    step s = .next { s with ovr := true, agenda := rest } ∧ ({ s with ovr := true } : State).statusWord.getLsbD 6 = true

/-- R48 on reads while BUSY = 1: until the command completes, STATUS shows BUSY = 1 and, but for OVR (bit 6), every
readable register keeps its value, whatever the core and the host do (a reset apart). -/
def Obligations.HostSeesNoIntermediateState : Prop :=
  ∀ s t : State, s.busy = true → step s = .next t → t.busy = true → s.agenda.head? ≠ some (.host .reset) →
    t.statusWord ||| 0x40 = s.statusWord ||| 0x40 ∧ t.statusWord.getLsbD 0 = true ∧
      ∀ offset, offset ≠ 0x14 → t.readRegister offset = s.readRegister offset

/-! ### Host registers -/

/-- R42: a write of A0 .. A3 while BUSY = 0 stores the value, a read returns it, the other registers read as before; and
the core never writes them. -/
def Obligations.ArgumentRegistersHoldWhatTheHostWrites : Prop :=
  (∀ (s : State) (offset : Nat) (v : Word) (rest : List Turn), s.phase = .idle →
    offset ∈ [0x04, 0x08, 0x0C, 0x10] → s.agenda = .host (.writeReg offset 32 v) :: rest →
    ∃ t, step s = .next t ∧ t.readRegister offset = v ∧ t.toEngine = s.toEngine ∧
      ∀ other, other ≠ offset → t.readRegister other = s.readRegister other) ∧
  (∀ s t : State, s.coreToMove → step s = .next t → t.a0 = s.a0 ∧ t.a1 = s.a1 ∧ t.a2 = s.a2 ∧ t.a3 = s.a3)

/-- The register map of R40 for reads, with R41's CMD and R47's unmapped offsets reading 0, and the refusal of R48 for a
read or a write of another width or at another offset (past the window: log entry 11). -/
def Obligations.RegisterReadsFollowTheMap : Prop :=
  (∀ (s : State) (offset width : Nat) (v : Word) (rest : List Turn),
    s.agenda = .host (.writeReg offset width v) :: rest → width ≠ 32 ∨ offset % 4 ≠ 0 ∨ 0x40 ≤ offset →
    step s = .refused .hostRegisterAccessShape) ∧
  ∀ (s : State) (offset width : Nat) (rest : List Turn), s.agenda = .host (.readReg offset width) :: rest →
    (∀ k, k < 16 → offset = 4 * k → width = 32 →
      step s = .next { s with agenda := rest, rdata :=
        [0, s.a0, s.a1, s.a2, s.a3, s.statusWord, s.res0, s.res1, s.cfgWord, s.bpc, s.maxw].getD k 0 }) ∧
    (width ≠ 32 ∨ offset % 4 ≠ 0 ∨ 0x40 ≤ offset → step s = .refused .hostRegisterAccessShape)

/-- R43 and R54: every bit of STATUS as a number, its reset value, and that a host write to it is ignored. EXH, TERM and
LSTATE are those of the engine registers, but while a job runs those it started with (R48). -/
def Obligations.StatusFieldsStandWhereR43Says : Prop :=
  (∀ s : State, ((∀ j, s.phase ≠ .running j) → s.viewEngine = s.toEngine) ∧
    ∀ j, s.phase = .running j → s.viewEngine = j.start) ∧
  (∀ s : State, s.statusWord.toNat =
    s.busy.toNat + 2 * s.fatal.toNat + 4 * s.viewEngine.exh.toNat + 8 * s.viewEngine.term.toNat
      + 16 * (if s.keyset = false ∨ s.ivset = false then 0 else if s.viewEngine.exh then 3
              else if s.viewEngine.gen then 2 else 1)
      + 64 * s.ovr.toNat + 256 * s.cause.code.toNat) ∧
  State.reset.statusWord = 0x00000000 ∧
  (∀ (s : State) (v : Word) (rest : List Turn), s.agenda = .host (.writeReg 0x14 32 v) :: rest →
    step s = .next { s with agenda := rest })

/-- R45: every bit of CFG as a number, its reset value, and that a host write to it is ignored. ROUNDS is the engine
register, but while a job runs the one it started with (R48). -/
def Obligations.CfgFieldsStandWhereR45Says : Prop :=
  (∀ s : State, ((∀ j, s.phase ≠ .running j) → s.viewEngine.rounds = s.rounds) ∧
    ∀ j, s.phase = .running j → s.viewEngine.rounds = j.start.rounds) ∧
  (∀ s : State, s.cfgWord.toNat =
    s.parEn.toNat + 2 * s.key256.toNat + 4 * s.keyset.toNat + 8 * s.ivset.toNat + 256 * s.viewEngine.rounds.toNat) ∧
  State.reset.cfgWord = 0x00001401 ∧
  (∀ (s : State) (v : Word) (rest : List Turn), s.agenda = .host (.writeReg 0x20 32 v) :: rest →
    step s = .next { s with agenda := rest })

/-- R46 and R47: BPC and MAXW read the tuning registers, the unmapped offsets read 0, and a host write to either kind
changes nothing; only TUNE and reset change BPC and MAXW. A host write to RES0 or RES1 changes nothing too (R44). -/
def Obligations.OnlyTuneChangesTheTuningRegisters : Prop :=
  (∀ (s : State) (offset : Nat) (v : Word) (rest : List Turn),
    offset ∈ [0x18, 0x1C, 0x24, 0x28, 0x2C, 0x30, 0x34, 0x38, 0x3C] → s.agenda = .host (.writeReg offset 32 v) :: rest →
    step s = .next { s with agenda := rest }) ∧
  (∀ s : State, s.readRegister 0x24 = s.bpc ∧ s.readRegister 0x28 = s.maxw ∧
    ∀ offset ∈ [0x2C, 0x30, 0x34, 0x38, 0x3C], s.readRegister offset = 0) ∧
  State.reset.bpc = 0x00000200 ∧ State.reset.maxw = 0x00000080 ∧
  (∀ s t : State, step s = .next t → (t.bpc ≠ s.bpc ∨ t.maxw ≠ s.maxw ∨ t.parEn ≠ s.parEn) →
    s.agenda.head? = some (.host .reset) ∨
      ∃ w f, s.phase = .accepted w ∧ decode w = .ok (.tune f) ∧ s.fatal = false ∧
        t.parEn = f ∧ t.bpc = s.a0 ∧ t.maxw = s.a1)

/-! ### Reset -/

/-- R53: the reset values, which a reset of an idle core sets while it leaves buffer memory alone. -/
def Obligations.ResetSetsEveryRegister : Prop :=
  ∀ (s : State) (rest : List Turn), s.phase = .idle → s.agenda = .host .reset :: rest →
    ∃ t, step s = .next t ∧ t.mem = s.mem ∧
      (∀ k : Fin 4, t.const[k] = 0) ∧ (∀ k : Fin 8, t.key[k] = 0) ∧ (∀ k : Fin 2, t.nonce[k] = 0) ∧
      t.ctr = 0 ∧ t.rounds = 20 ∧ (∀ k : Fin 64, t.outbuf[k] = 0) ∧ t.next.val = 64 ∧
      t.exh = false ∧ t.term = false ∧ t.gen = false ∧
      t.keyset = false ∧ t.ivset = false ∧ t.key256 = false ∧ t.fatal = false ∧ t.ovr = false ∧
      t.parEn = true ∧ t.bpc = 512 ∧ t.maxw = 128 ∧ t.busy = false ∧
      t.cause = .ok ∧ t.res0 = 0 ∧ t.res1 = 0 ∧ t.a0 = 0 ∧ t.a1 = 0 ∧ t.a2 = 0 ∧ t.a3 = 0 ∧
      t.lifecycle = .unconfigured

/-- R261: a reset while BUSY = 1 abandons the command: the registers take their reset values, and no worker, scheduler
state or completion is left; each byte of the destination range of a generation command holds its value from before the
command or the one the command would have written there, and every other byte is unchanged. It holds for every value of
the free value `Config.abandonedByteWritten`. -/
def Obligations.ResetDuringACommandLeavesOldOrNewBytes : Prop :=
  ∀ (s : State) (rest : List Turn), s.mem.wf → s.busy = true → s.agenda = .host .reset :: rest →
    ∃ t, step s = .next t ∧ t.busy = false ∧
      t = { State.reset with
        mem := t.mem, cfg := s.cfg, past := t.past, agenda := t.agenda, rdata := t.rdata, draws := t.draws } ∧
      (s.currentJob = none → t.mem = s.mem) ∧
      (∀ j, s.currentJob = some j →
        (∀ a, a < j.dst ∨ j.dst + j.len ≤ a → t.mem.read a = s.mem.read a) ∧
        (∀ a, j.dst ≤ a → a < j.dst + j.len →
          t.mem.read a = j.start.mem.read a ∨
          t.mem.read a = (seqRun j.src j.dst j.zero j.len 0 j.start).engine.mem.read a))

/-- R285: while BUSY = 1, a host write in a range the command reads (key, nonce, source) or writes, and a host read in the
range it writes, is a fault: for each command that reaches buffer memory and is not going to be rejected, the whole ranges
its operands name (DEDUCED, log entry 10); and for a running XOR or KS, those of its job. A host read of key, nonce and
source bytes is allowed (R285), so it is no such access. -/
def Obligations.HostAccessInARunningRangeFaults : Prop :=
  (∀ (s : State) (w : Word) (i : Instr) (a : Nat) (b : Byte) (rest : List Turn),
    s.phase = .accepted w → decode w = .ok i → a < s.cfg.memSize →
    (s.agenda = .host (.writeMem a b) :: rest →
      (i = .init → s.checkInit = none →
        (s.a0.toNat ≤ a ∧ a < s.a0.toNat + s.a2.toNat) ∨ (s.a1.toNat ≤ a ∧ a < s.a1.toNat + 8) →
        step s = .fault .hostTouchesRunningRange) ∧
      (s.fatal = false → i = .keysetup → s.checkKeysetup = none → s.a0.toNat ≤ a → a < s.a0.toNat + s.a2.toNat →
        step s = .fault .hostTouchesRunningRange) ∧
      (s.fatal = false → i = .ivsetup → s.checkIvsetup = none → s.a0.toNat ≤ a → a < s.a0.toNat + 8 →
        step s = .fault .hostTouchesRunningRange) ∧
      (s.fatal = false → i = .xor → s.checkXor = none →
        (s.a0.toNat ≤ a ∧ a < s.a0.toNat + s.a2.toNat) ∨ (s.a1.toNat ≤ a ∧ a < s.a1.toNat + s.a2.toNat) →
        step s = .fault .hostTouchesRunningRange) ∧
      (s.fatal = false → i = .ks → s.checkKs = none → s.a1.toNat ≤ a → a < s.a1.toNat + s.a2.toNat →
        step s = .fault .hostTouchesRunningRange)) ∧
    (s.agenda = .host (.readMem a) :: rest → s.fatal = false →
      (i = .xor ∧ s.checkXor = none) ∨ (i = .ks ∧ s.checkKs = none) →
      s.a1.toNat ≤ a → a < s.a1.toNat + s.a2.toNat → step s = .fault .hostTouchesRunningRange)) ∧
  (∀ (s : State) (j : Job) (a : Nat) (b : Byte) (rest : List Turn), s.phase = .running j → a < s.cfg.memSize →
    (s.agenda = .host (.writeMem a b) :: rest →
      (j.dst ≤ a ∧ a < j.dst + j.len) ∨ (j.zero = false ∧ j.src ≤ a ∧ a < j.src + j.len) →
      step s = .fault .hostTouchesRunningRange) ∧
    (s.agenda = .host (.readMem a) :: rest → j.dst ≤ a → a < j.dst + j.len →
      step s = .fault .hostTouchesRunningRange))

/-- Host accesses to buffer memory (R22(a), R60, R72): outside the running command's destination a read answers the byte,
or, where PLATFORM_COHERENT is false, the byte or a past value of it, until the platform makes the writes visible (R78); a
write outside all the running command's ranges, in every phase, writes its byte and no other. At an address ≥ MEM_SIZE both
fault. The byte-wide access, `rdata`, the fault and the form of the past values are the model's choices (log entries 12, 5,
11 and 21). -/
def Obligations.HostMemoryAccessesMoveOneByte : Prop :=
  (∀ (s : State) (a : Nat) (b : Byte) (rest : List Turn),
    (s.agenda = .host (.readMem a) :: rest →
      (a < s.cfg.memSize → (∀ j, s.currentJob = some j → a < j.dst ∨ j.dst + j.len ≤ a) →
        (s.cfg.platformCoherent = true →
          step s = .next { s with agenda := rest, rdata := (s.mem.read a).setWidth 32 }) ∧
        (s.cfg.platformCoherent = false →
          ∃ v : Byte, (v = s.mem.read a ∨ ∃ m ∈ s.past, v = m.read a) ∧
            step s = .next { s with agenda := rest, rdata := v.setWidth 32, draws := s.draws + 1 })) ∧
      (s.cfg.memSize ≤ a → step s = .fault .hostAddressOutsideMemory)) ∧
    (s.agenda = .host (.writeMem a b) :: rest →
      (a < s.cfg.memSize → s.mem.wf →
        (∀ w i, s.phase = .accepted w → decode w = .ok i → ∀ r ∈ s.contextReads i, a < r.1 ∨ r.1 + r.2 ≤ a) →
        (∀ j, s.currentJob = some j →
          (a < j.dst ∨ j.dst + j.len ≤ a) ∧ (j.zero = true ∨ a < j.src ∨ j.src + j.len ≤ a)) →
        ∃ t, step s = .next t ∧ t = { s with mem := t.mem, agenda := rest, past := s.mem :: s.past } ∧
          ∀ x, t.mem.read x = if x = a then b else s.mem.read x) ∧
      (s.cfg.memSize ≤ a → step s = .fault .hostAddressOutsideMemory))) ∧
  ∀ (s : State) (rest : List Turn), s.agenda = .sync :: rest → step s = .next { s with agenda := rest, past := [s.mem] }

/-! ### Buffer memory -/

/-- R62 and R63: `MemRead` returns the bytes in address order; `MemWrite` writes its bytes to consecutive addresses and
changes no other byte. -/
def Obligations.MemReadAndMemWriteMoveExactlyTheirBytes : Prop :=
  (∀ (m : Memory) (a n : Nat), (m.readBytes a n).length = n ∧
    ∀ j, j < n → (m.readBytes a n)[j]? = some (m.read (a + j))) ∧
  (∀ (m : Memory) (a : Nat) (bs : List Byte), m.wf → ∀ x,
    (m.writeBytes a bs).read x = if a ≤ x ∧ x < a + bs.length then bs.getD (x - a) 0 else m.read x)

/-- The model's canonical form (log entry 2) is canonical: memories that read alike are equal. -/
def Obligations.CanonicalMemoriesThatReadAlikeAreEqual : Prop :=
  ∀ m n : Memory, m.wf → n.wf → (∀ a, m.read a = n.read a) → m = n

/-- R71: of the XORs that pass the earlier checks, exactly those whose source and destination differ and share an address
are rejected with OverlapError. -/
def Obligations.XorRejectsExactlyPartialOverlap : Prop :=
  ∀ s : State, s.fatal = false → s.keyset = true → s.ivset = true → s.term = false → s.a2.toNat ≤ s.a3.toNat →
    (s.a2 = 0 ∨ (s.a0.toNat + s.a2.toNat ≤ s.cfg.memSize ∧ s.a1.toNat + s.a2.toNat ≤ s.cfg.memSize)) →
    (exec .xor s = .next (s.rejectedWith .overlapError) ↔
      s.a0 ≠ s.a1 ∧ ∃ a, (s.a0.toNat ≤ a ∧ a < s.a0.toNat + s.a2.toNat) ∧
        (s.a1.toNat ≤ a ∧ a < s.a1.toNat + s.a2.toNat))

/-! ### Block permutation engine -/

/-- R102: the indexed quarter-round writes the quarter-round's four words and leaves the other twelve. -/
def Obligations.IndexedQuarterRoundTouchesFourWords : Prop :=
  ∀ (x : StateWords) (i j k l : Fin 16), [i, j, k, l].Nodup →
    let q := quarterRound x[i] x[j] x[k] x[l]
    let y := quarterRoundAt x i j k l
    y[i] = q.1 ∧ y[j] = q.2.1 ∧ y[k] = q.2.2.1 ∧ y[l] = q.2.2.2 ∧
      ∀ n : Fin 16, n ∉ [i, j, k, l] → y[n] = x[n]

/-- R108: the four quarter-rounds of a column round, and of a diagonal round, give the round in any order. -/
def Obligations.QuarterRoundsOfOneRoundCommute : Prop :=
  ∀ (x : StateWords) (order : List (Fin 16 × Fin 16 × Fin 16 × Fin 16)),
    (order.Perm [(0, 4, 8, 12), (1, 5, 9, 13), (2, 6, 10, 14), (3, 7, 11, 15)] →
      order.foldl (fun y g => quarterRoundAt y g.1 g.2.1 g.2.2.1 g.2.2.2) x = columnRound x) ∧
    (order.Perm [(0, 5, 10, 15), (1, 6, 11, 12), (2, 7, 8, 13), (3, 4, 9, 14)] →
      order.foldl (fun y g => quarterRoundAt y g.1 g.2.1 g.2.2.1 g.2.2.2) x = diagonalRound x)

/-- R106, R107 and R109: after r/2 double-rounds, output byte 4i + j is bits 8j+7 .. 8j of `X[i] + S[i]`. -/
def Obligations.BlockBytesAreTheFedForwardWords : Prop :=
  ∀ (s : StateWords) (r : BitVec 8) (i : Fin 16) (j : Fin 4),
    (blockTransform s r)[4 * i.val + j.val]'(by omega) =
      ((((doubleRound^[r.toNat / 2]) s)[i] + s[i]) >>> (8 * j.val)).setWidth 8

/-- The corner case of R110: the all-zero state gives the all-zero block, for every round count. -/
def Obligations.ZeroStateGivesTheZeroBlock : Prop :=
  ∀ (r : BitVec 8) (t : Fin 64), (blockTransform (Vector.replicate 16 0) r)[t] = 0

/-! ### Context commands -/

/-- R132 with R114, R115 and R130: a valid INIT completes, FATAL or not, and constructs the context. Byte j of KEY[i] is
key byte (4i + j) mod keylen. -/
def Obligations.InitConstructsTheContext : Prop :=
  ∀ s : State, (s.a2 = 16 ∨ s.a2 = 32) → s.a3 = 8 →
    s.a0.toNat + s.a2.toNat ≤ s.cfg.memSize → s.a1.toNat + 8 ≤ s.cfg.memSize →
    ∃ t, exec .init s = .next t ∧
      (∀ (i : Fin 8) (j : Fin 4), (t.key[i] >>> (8 * j.val)).setWidth 8 =
        s.mem.read (s.a0.toNat + (4 * i.val + j.val) % s.a2.toNat)) ∧
      (∀ (i : Fin 2) (j : Fin 4), (t.nonce[i] >>> (8 * j.val)).setWidth 8 =
        s.mem.read (s.a1.toNat + 4 * i.val + j.val)) ∧
      t = { s with
        key := t.key, nonce := t.nonce
        const := if s.a2 = 32 then #v[0x61707865, 0x3320646E, 0x79622D32, 0x6B206574]
                 else #v[0x61707865, 0x3120646E, 0x79622D36, 0x6B206574]
        key256 := s.a2 = 32, keyset := true, ivset := true
        ctr := 0, next := 64, exh := false, term := false, gen := false, rounds := 20
        fatal := false, ovr := false, cause := .ok, res0 := 0, res1 := 0, phase := .idle }

/-- R131 with R114 and R115: a valid KEYSETUP loads KEY and CONST and sets KEYSET and KEY256; nothing else of the context
changes, the buffered block included. -/
def Obligations.KeysetupLoadsTheKey : Prop :=
  ∀ s : State, s.fatal = false → (s.a2 = 16 ∨ s.a2 = 32) → s.a0.toNat + s.a2.toNat ≤ s.cfg.memSize →
    ∃ t, exec .keysetup s = .next t ∧
      (∀ (i : Fin 8) (j : Fin 4), (t.key[i] >>> (8 * j.val)).setWidth 8 =
        s.mem.read (s.a0.toNat + (4 * i.val + j.val) % s.a2.toNat)) ∧
      t = { s with
        key := t.key
        const := if s.a2 = 32 then #v[0x61707865, 0x3320646E, 0x79622D32, 0x6B206574]
                 else #v[0x61707865, 0x3120646E, 0x79622D36, 0x6B206574]
        key256 := s.a2 = 32, keyset := true, cause := .ok, res0 := 0, res1 := 0, phase := .idle }

/-- R133: a valid IVSETUP loads NONCE and rewinds the stream to block 0. -/
def Obligations.IvsetupLoadsTheNonceAndRewinds : Prop :=
  ∀ s : State, s.fatal = false → s.a2 = 8 → s.a0.toNat + 8 ≤ s.cfg.memSize →
    ∃ t, exec .ivsetup s = .next t ∧
      (∀ (i : Fin 2) (j : Fin 4), (t.nonce[i] >>> (8 * j.val)).setWidth 8 =
        s.mem.read (s.a0.toNat + 4 * i.val + j.val)) ∧
      t = { s with
        nonce := t.nonce, ivset := true, ctr := 0, next := 64, exh := false, term := false, gen := false
        cause := .ok, res0 := 0, res1 := 0, phase := .idle }

/-- R135: SETROUNDS writes ROUNDS for 8, 12 and 20, and rejects every other r with InvalidRoundCount. -/
def Obligations.SetroundsWritesLegalRoundCountsOnly : Prop :=
  ∀ (s : State) (r : BitVec 8), s.fatal = false →
    (r.toNat ∈ [8, 12, 20] → exec (.setrounds r) s =
      .next { s with rounds := r, cause := .ok, res0 := 0, res1 := 0, phase := .idle }) ∧
    (r.toNat ∉ [8, 12, 20] → exec (.setrounds r) s = .next (s.rejectedWith .invalidRoundCount))

/-- R136 with R130: SEEK repositions to block A1·2^32 + A0, for every value. -/
def Obligations.SeekRepositionsToTheBlock : Prop :=
  ∀ s : State, s.fatal = false → ∃ t, exec .seek s = .next t ∧
    t.ctr.toNat = s.a1.toNat * 2 ^ 32 + s.a0.toNat ∧
    t = { s with ctr := t.ctr, next := 64, exh := false, term := false, gen := false
                 cause := .ok, res0 := 0, res1 := 0, phase := .idle }

/-- R134: GETCTR returns the counter, low word in RES0 and high word in RES1, and changes nothing else. -/
def Obligations.GetctrReturnsTheCounter : Prop :=
  ∀ s : State, s.fatal = false → ∃ t, exec .getctr s = .next t ∧
    t.res1.toNat * 2 ^ 32 + t.res0.toNat = s.ctr.toNat ∧
    t = { s with cause := .ok, res0 := t.res0, res1 := t.res1, phase := .idle }

/-- R137: TUNE writes the tuning registers unless a zero is given, which is InvalidTuning. -/
def Obligations.TuneWritesTheTuningRegisters : Prop :=
  ∀ (s : State) (f : Bool), s.fatal = false →
    (s.a0 ≠ 0 → s.a1 ≠ 0 → exec (.tune f) s =
      .next { s with parEn := f, bpc := s.a0, maxw := s.a1, cause := .ok, res0 := 0, res1 := 0, phase := .idle }) ∧
    (s.a0 = 0 ∨ s.a1 = 0 → exec (.tune f) s = .next (s.rejectedWith .invalidTuning))

/-- R138: KEYSETUP, SETROUNDS, TUNE and GETCTR never move the stream position; INIT, IVSETUP and SEEK that succeed set CTR
and NEXT, clear EXH, TERM and GEN, and leave OUTBUF; and none of the seven writes a byte of buffer memory, on any
path. -/
def Obligations.WhichCommandsMoveTheStreamPosition : Prop :=
  (∀ (i : Instr) (s t : State), i ≠ .xor → i ≠ .ks → exec i s = .next t →
    t.outbuf = s.outbuf ∧ (∀ a, t.mem.read a = s.mem.read a)) ∧
  (∀ (i : Instr) (s t : State), i ≠ .xor → i ≠ .ks → i ≠ .init → i ≠ .ivsetup → i ≠ .seek → exec i s = .next t →
    t.ctr = s.ctr ∧ t.next = s.next ∧ t.exh = s.exh ∧ t.term = s.term ∧ t.gen = s.gen) ∧
  (∀ (i : Instr) (s t : State), i = .init ∨ i = .ivsetup ∨ i = .seek → exec i s = .next t → t.fatal = false →
    t.ctr = (if i = .seek then s.a1 ++ s.a0 else 0) ∧ t.next = 64 ∧ t.exh = false ∧ t.term = false ∧ t.gen = false)

/-- R233 and R225 for the context commands: the causes they reject with, in the order of their checks. -/
def Obligations.ContextCommandsRejectInTheOrderOfTheirChecks : Prop :=
  ∀ s : State,
    (s.a2.toNat ∉ [16, 32] → exec .init s = .next (s.rejectedWith .invalidKeyLength)) ∧
    (s.a2.toNat ∈ [16, 32] → s.a3.toNat ≠ 8 → exec .init s = .next (s.rejectedWith .invalidNonceLength)) ∧
    (s.a2.toNat ∈ [16, 32] → s.a3.toNat = 8 →
      s.cfg.memSize < s.a0.toNat + s.a2.toNat ∨ s.cfg.memSize < s.a1.toNat + 8 →
      exec .init s = .next (s.rejectedWith .addressError)) ∧
    (s.fatal = false →
      (s.a2.toNat ∉ [16, 32] → exec .keysetup s = .next (s.rejectedWith .invalidKeyLength)) ∧
      (s.a2.toNat ∈ [16, 32] → s.cfg.memSize < s.a0.toNat + s.a2.toNat →
        exec .keysetup s = .next (s.rejectedWith .addressError)) ∧
      (s.a2.toNat ≠ 8 → exec .ivsetup s = .next (s.rejectedWith .invalidNonceLength)) ∧
      (s.a2.toNat = 8 → s.cfg.memSize < s.a0.toNat + 8 → exec .ivsetup s = .next (s.rejectedWith .addressError)))

/-! ### Keystream commands -/

/-- R171 in its two-word form: the low word is incremented, a carry goes to the high word, EXH is set exactly when the
high word wraps, and the block is that of the counter before the increment. -/
def Obligations.GenerateBlockCarriesIntoTheHighWord : Prop :=
  ∀ e : Engine, e.exh = false →
    let g := e.generateBlock
    g.ctrLo = e.ctrLo + 1 ∧
    g.ctrHi = (if e.ctrLo + 1 = 0 then e.ctrHi + 1 else e.ctrHi) ∧
    (g.exh = true ↔ e.ctrLo + 1 = 0 ∧ e.ctrHi + 1 = 0) ∧
    (g.exh = true ↔ e.ctr.toNat = 2 ^ 64 - 1) ∧
    g.outbuf = blockTransform (stateWords e.const e.key e.nonce e.ctr) e.rounds ∧
    g = { e with ctr := g.ctr, exh := g.exh, outbuf := g.outbuf, gen := true, next := 0 }

/-- R177 with R172 and R174: an XOR that passes its preconditions and does not outrun the stream completes with OK, writes
source XOR keystream to the L bytes from A1 and no other byte, advances the position by L, and leaves the registers the
rules give. Every form: L = 0, in place (A0 = A1) and disjoint. -/
def Obligations.XorWritesSourceXorKeystream : Prop :=
  ∀ s : State, s.mem.wf → s.fatal = false → s.keyset = true → s.ivset = true → s.term = false →
    s.a2.toNat ≤ s.a3.toNat →
    (s.a2 = 0 ∨ (s.a0.toNat + s.a2.toNat ≤ s.cfg.memSize ∧ s.a1.toNat + s.a2.toNat ≤ s.cfg.memSize ∧
      (s.a0 = s.a1 ∨ s.a0.toNat + s.a2.toNat ≤ s.a1.toNat ∨ s.a1.toNat + s.a2.toNat ≤ s.a0.toNat))) →
    s.a2.toNat ≤ s.capacity →
    ∃ t, exec .xor s = .next t ∧
      (∀ a, t.mem.read a =
        if s.a1.toNat ≤ a ∧ a < s.a1.toNat + s.a2.toNat then
          s.mem.read (s.a0.toNat + (a - s.a1.toNat)) ^^^ s.streamByte (a - s.a1.toNat)
        else s.mem.read a) ∧
      t.position = s.position + s.a2.toNat ∧
      t.next.val = s.next.val + s.a2.toNat - 64 * s.blocksFor s.a2.toNat ∧
      t = { s with
        mem := t.mem, next := t.next
        ctr := s.ctr + BitVec.ofNat 64 (s.blocksFor s.a2.toNat)
        exh := s.exh || s.ctr.toNat + s.blocksFor s.a2.toNat = 2 ^ 64
        gen := s.gen || 0 < s.blocksFor s.a2.toNat
        outbuf := if s.blocksFor s.a2.toNat = 0 then s.outbuf
                  else s.blockAt (s.ctr + BitVec.ofNat 64 (s.blocksFor s.a2.toNat - 1))
        cause := .ok, res0 := s.a2, res1 := 0, phase := .idle }

/-- R178 with R172 and R174: the same for KS, which writes the keystream itself and reads no source. -/
def Obligations.KsWritesTheKeystream : Prop :=
  ∀ s : State, s.mem.wf → s.fatal = false → s.keyset = true → s.ivset = true → s.term = false →
    (s.a2 = 0 ∨ s.a1.toNat + s.a2.toNat ≤ s.cfg.memSize) → s.a2.toNat ≤ s.capacity →
    ∃ t, exec .ks s = .next t ∧
      (∀ a, t.mem.read a =
        if s.a1.toNat ≤ a ∧ a < s.a1.toNat + s.a2.toNat then s.streamByte (a - s.a1.toNat) else s.mem.read a) ∧
      t.position = s.position + s.a2.toNat ∧
      t.next.val = s.next.val + s.a2.toNat - 64 * s.blocksFor s.a2.toNat ∧
      t = { s with
        mem := t.mem, next := t.next
        ctr := s.ctr + BitVec.ofNat 64 (s.blocksFor s.a2.toNat)
        exh := s.exh || s.ctr.toNat + s.blocksFor s.a2.toNat = 2 ^ 64
        gen := s.gen || 0 < s.blocksFor s.a2.toNat
        outbuf := if s.blocksFor s.a2.toNat = 0 then s.outbuf
                  else s.blockAt (s.ctr + BitVec.ofNat 64 (s.blocksFor s.a2.toNat - 1))
        cause := .ok, res0 := s.a2, res1 := 0, phase := .idle }

/-- R173 and R180: an XOR or KS that needs more bytes than the stream has left writes those it has, sets TERM and ends
with KeystreamExhausted and their count; FATAL stays 0, and the bytes at higher offsets are not written. -/
def Obligations.OutrunningTheStreamEndsWithKeystreamExhausted : Prop :=
  ∀ s : State, s.mem.wf → s.fatal = false → s.keyset = true → s.ivset = true → s.term = false →
    s.capacity < s.a2.toNat → s.a1.toNat + s.a2.toNat ≤ s.cfg.memSize →
    ((s.a2.toNat ≤ s.a3.toNat → s.a0.toNat + s.a2.toNat ≤ s.cfg.memSize →
      (s.a0 = s.a1 ∨ s.a0.toNat + s.a2.toNat ≤ s.a1.toNat ∨ s.a1.toNat + s.a2.toNat ≤ s.a0.toNat) →
      ∃ t, exec .xor s = .next t ∧
        (∀ a, t.mem.read a =
          if s.a1.toNat ≤ a ∧ a < s.a1.toNat + s.capacity then
            s.mem.read (s.a0.toNat + (a - s.a1.toNat)) ^^^ s.streamByte (a - s.a1.toNat)
          else s.mem.read a) ∧
        t.res0.toNat = s.capacity ∧ (s.exh = false → t.ctr = 0 ∧ t.gen = true) ∧ (s.exh = true → t.ctr = s.ctr ∧ t.gen = s.gen) ∧
        t = { s with
          mem := t.mem, ctr := t.ctr, gen := t.gen, outbuf := t.outbuf, res0 := t.res0
          next := 64, exh := true, term := true, cause := .keystreamExhausted, res1 := 0, phase := .idle }) ∧
     ∃ t, exec .ks s = .next t ∧
        (∀ a, t.mem.read a =
          if s.a1.toNat ≤ a ∧ a < s.a1.toNat + s.capacity then s.streamByte (a - s.a1.toNat) else s.mem.read a) ∧
        t.res0.toNat = s.capacity ∧ (s.exh = false → t.ctr = 0 ∧ t.gen = true) ∧ (s.exh = true → t.ctr = s.ctr ∧ t.gen = s.gen) ∧
        t = { s with
          mem := t.mem, ctr := t.ctr, gen := t.gen, outbuf := t.outbuf, res0 := t.res0
          next := 64, exh := true, term := true, cause := .keystreamExhausted, res1 := 0, phase := .idle })

/-- R179: a request of no bytes that passes R176 finishes OK with RES0 = 0 and changes nothing else, at any addresses and
also when the stream is exhausted. -/
def Obligations.ZeroLengthRequestChangesNothing : Prop :=
  ∀ s : State, s.fatal = false → s.keyset = true → s.ivset = true → s.a2 = 0 →
    (s.term = false →
      exec .xor s = .next { s with cause := .ok, res0 := 0, res1 := 0, phase := .idle } ∧
      exec .ks s = .next { s with cause := .ok, res0 := 0, res1 := 0, phase := .idle }) ∧
    (s.term = true →
      exec .xor s = .next (s.rejectedWith .fatalMisuse) ∧ exec .ks s = .next (s.rejectedWith .fatalMisuse))

/-- R236: after KeystreamExhausted (TERM = 1) an XOR or KS of any length is a fatal misuse. -/
def Obligations.GenerationAfterTheTerminalSignalIsFatalMisuse : Prop :=
  ∀ (i : Instr) (s : State), i = .xor ∨ i = .ks → s.fatal = false → s.keyset = true → s.ivset = true → s.term = true →
    exec i s = .next (s.rejectedWith .fatalMisuse)

/-- R176: the generation preconditions, in their order. -/
def Obligations.GenerationPreconditionsRejectInOrder : Prop :=
  ∀ s : State, s.fatal = false →
    (s.keyset = false ∨ s.ivset = false →
      exec .xor s = .next (s.rejectedWith .notConfigured) ∧ exec .ks s = .next (s.rejectedWith .notConfigured)) ∧
    (s.keyset = true → s.ivset = true →
      (s.term = true →
        exec .xor s = .next (s.rejectedWith .fatalMisuse) ∧ exec .ks s = .next (s.rejectedWith .fatalMisuse)) ∧
      (s.term = false →
        (s.a3.toNat < s.a2.toNat → exec .xor s = .next (s.rejectedWith .insufficientOutputSpace)) ∧
        (s.a2.toNat ≤ s.a3.toNat → 0 < s.a2.toNat →
          s.cfg.memSize < s.a0.toNat + s.a2.toNat ∨ s.cfg.memSize < s.a1.toNat + s.a2.toNat →
          exec .xor s = .next (s.rejectedWith .addressError)) ∧
        (s.a2.toNat ≤ s.a3.toNat → 0 < s.a2.toNat →
          s.a0.toNat + s.a2.toNat ≤ s.cfg.memSize → s.a1.toNat + s.a2.toNat ≤ s.cfg.memSize →
          s.a0 ≠ s.a1 → s.a0.toNat < s.a1.toNat + s.a2.toNat → s.a1.toNat < s.a0.toNat + s.a2.toNat →
          exec .xor s = .next (s.rejectedWith .overlapError)) ∧
        (0 < s.a2.toNat → s.cfg.memSize < s.a1.toNat + s.a2.toNat →
          exec .ks s = .next (s.rejectedWith .addressError))))

/-- The frame of XOR and KS, on every path and for every form: the bytes outside the RES0 bytes from A1 are unchanged when
the command is not rejected, all bytes when it is, and so are KEY, CONST, NONCE, ROUNDS, KEYSET, IVSET, KEY256, OVR, the
tuning and argument registers and the parameters (R67, R180, R55). -/
def Obligations.XorAndKsWriteOnlyTheirDestination : Prop :=
  ∀ (i : Instr) (s t : State), i = .xor ∨ i = .ks → s.mem.wf → exec i s = .next t →
    (s.fatal = false → t.fatal = false → ∀ a, a < s.a1.toNat ∨ s.a1.toNat + t.res0.toNat ≤ a → t.mem.read a = s.mem.read a) ∧
    (t.fatal = true → ∀ a, t.mem.read a = s.mem.read a) ∧
    t = { s with
      mem := t.mem, ctr := t.ctr, next := t.next, outbuf := t.outbuf, exh := t.exh, term := t.term, gen := t.gen
      fatal := t.fatal, cause := t.cause, res0 := t.res0, res1 := t.res1, phase := .idle }

/-- R175 for two pieces: one XOR of L1 + L2 bytes, and two XORs of L1 and L2 over the consecutive ranges, leave equal bytes
and equal engine registers (`Engine`), and the counts add up, at the exhaustion point too; the same for KS. Where the first
piece already outruns the stream the second is a fatal misuse (R236), so FATAL and CAUSE may differ there. -/
def Obligations.SplittingARequestChangesNothing : Prop :=
  ∀ (s : State) (l1 l2 : Nat), s.mem.wf → s.cfg.ok → s.fatal = false → s.keyset = true → s.ivset = true →
    s.term = false → s.a2.toNat = l1 + l2 →
    s.a1.toNat + s.a2.toNat ≤ s.cfg.memSize →
    (s.a2.toNat ≤ s.a3.toNat → s.a0.toNat + s.a2.toNat ≤ s.cfg.memSize →
      (s.a0 = s.a1 ∨ s.a0.toNat + s.a2.toNat ≤ s.a1.toNat ∨ s.a1.toNat + s.a2.toNat ≤ s.a0.toNat) →
      ∃ t t1 t2, exec .xor s = .next t ∧ exec .xor { s with a2 := BitVec.ofNat 32 l1 } = .next t1 ∧
        exec .xor { t1 with a0 := s.a0 + BitVec.ofNat 32 l1, a1 := s.a1 + BitVec.ofNat 32 l1, a2 := BitVec.ofNat 32 l2 }
          = .next t2 ∧
        t2.toEngine = t.toEngine ∧ t1.res0.toNat + t2.res0.toNat = t.res0.toNat) ∧
    ∃ t t1 t2, exec .ks s = .next t ∧ exec .ks { s with a2 := BitVec.ofNat 32 l1 } = .next t1 ∧
      exec .ks { t1 with a1 := s.a1 + BitVec.ofNat 32 l1, a2 := BitVec.ofNat 32 l2 } = .next t2 ∧
      t2.toEngine = t.toEngine ∧ t1.res0.toNat + t2.res0.toNat = t.res0.toNat

/-- The corner case of R178: KS leaves exactly the state that an XOR of L zero bytes into the same destination leaves. -/
def Obligations.KsIsXorOfZeroBytes : Prop :=
  ∀ s : State, s.mem.wf → s.fatal = false → s.keyset = true → s.ivset = true → s.term = false →
    s.a2.toNat ≤ s.a3.toNat → s.a0.toNat + s.a2.toNat ≤ s.cfg.memSize → s.a1.toNat + s.a2.toNat ≤ s.cfg.memSize →
    (s.a0 = s.a1 ∨ s.a0.toNat + s.a2.toNat ≤ s.a1.toNat ∨ s.a1.toNat + s.a2.toNat ≤ s.a0.toNat) →
    (∀ k, k < s.a2.toNat → s.mem.read (s.a0.toNat + k) = 0) →
    exec .ks s = exec .xor s

/-- R181: an XOR of the output of an XOR, from the same keystream registers, gives the message back, in place or
elsewhere. -/
def Obligations.XorOfTheOutputGivesTheMessageBack : Prop :=
  ∀ (s t : State) (d : Word), s.mem.wf → s.fatal = false → exec .xor s = .next t → t.cause = .ok → t.fatal = false →
    s.a1.toNat + s.a2.toNat ≤ s.cfg.memSize → d.toNat + s.a2.toNat ≤ s.cfg.memSize →
    (d = s.a1 ∨ s.a1.toNat + s.a2.toNat ≤ d.toNat ∨ d.toNat + s.a2.toNat ≤ s.a1.toNat) →
    ∃ v, exec .xor { s with mem := t.mem, a0 := s.a1, a1 := d } = .next v ∧ v.cause = .ok ∧
      ∀ k, k < s.a2.toNat → v.mem.read (d.toNat + k) = s.mem.read (s.a0.toNat + k)

/-! ### Errors -/

/-- R227 and R229: a command that ends with FATAL = 1 (not one rejected without effect) had no effect but CAUSE, RES0 =
RES1 = 0 and the FATAL latch, and its cause is of the fatal class. -/
def Obligations.FatalCommandsAreAllOrNothing : Prop :=
  ∀ (i : Instr) (s t : State), s.fatal = false ∨ i = .init → exec i s = .next t → t.fatal = true →
    t.cause.isFatal = true ∧ t = s.rejectedWith t.cause

/-- R226: a command ends only with the causes of its row. -/
def Obligations.CommandsEndOnlyWithTheirCauses : Prop :=
  ∀ (i : Instr) (s t : State), s.fatal = false ∨ i = .init → exec i s = .next t →
    t.cause ∈ possibleCauses i ∧ (t.cause = .ok ∨ t.cause = .keystreamExhausted ↔ t.fatal = false)

/-- R230: FATAL, once set, is cleared only by a successful INIT or by reset. -/
def Obligations.OnlyInitAndResetClearFatal : Prop :=
  ∀ s t : State, s.fatal = true → step s = .next t → t.fatal = false →
    s.agenda.head? = some (.host .reset) ∨
      (s.coreToMove ∧ ∃ w, s.phase = .accepted w ∧ decode w = .ok .init ∧ s.checkInit = none)

/-- R34: KEYSET and IVSET are never cleared except by reset. -/
def Obligations.OnlyResetClearsKeysetAndIvset : Prop :=
  ∀ s t : State, step s = .next t → s.agenda.head? ≠ some (.host .reset) →
    (s.keyset = true → t.keyset = true) ∧ (s.ivset = true → t.ivset = true)

/-- R52, noninterference, in every phase: CONST, KEY, NONCE, OUTBUF, the workers' copies of them and the bytes of buffer
memory reach no host-readable register. States that differ in those only read alike; every step and every command, XOR and
KS included, takes them to states that again differ in those only (so STATUS, CFG, RES0 and RES1 read alike after it), or to
the same fault or refusal; and a command other than XOR and KS leaves equal memories equal. -/
def Obligations.SecretsDoNotReachTheHostRegisters : Prop :=
  (∀ s u : State, s.sameButSecrets u →
    (∀ offset, u.readRegister offset = s.readRegister offset) ∧ sameOutcome (step s) (step u) ∧
      ∀ i, sameOutcome (exec i s) (exec i u)) ∧
  (∀ s u : State, s.differsInSecretsOnly u →
    ∀ (i : Instr) (t : State), i ≠ .xor → i ≠ .ks → exec i s = .next t →
      ∃ v, exec i u = .next v ∧ t.differsInSecretsOnly v)

/-- R139: the lifecycle after a command that succeeds, in a state of the invariant. -/
def Obligations.LifecycleFollowsTheTransitionTable : Prop :=
  ∀ s : State, s.Inv →
    (∀ t, exec .init s = .next t → t.fatal = false → t.lifecycle = .initialized) ∧
    (s.fatal = false →
      (∀ t, exec .seek s = .next t → t.lifecycle = if s.keyset && s.ivset then .initialized else .unconfigured) ∧
      (∀ t, exec .ivsetup s = .next t → t.fatal = false →
        t.lifecycle = if s.keyset then .initialized else .unconfigured) ∧
      (∀ t, exec .keysetup s = .next t → t.fatal = false →
        t.lifecycle = if s.keyset then s.lifecycle else if s.ivset then .initialized else .unconfigured) ∧
      (∀ t r, exec (.setrounds r) s = .next t → t.lifecycle = s.lifecycle) ∧
      (∀ t f, exec (.tune f) s = .next t → t.lifecycle = s.lifecycle) ∧
      (∀ t, exec .getctr s = .next t → t.lifecycle = s.lifecycle) ∧
      (∀ t i, i = .xor ∨ i = .ks → exec i s = .next t → t.fatal = false → s.lifecycle ≠ .exhausted →
        t.lifecycle =
          if s.a2.toNat ≤ 64 - s.next.val then s.lifecycle
          else if s.a2.toNat - (64 - s.next.val) ≤ 64 * (2 ^ 64 - 1 - s.ctr.toNat) then .active else .exhausted) ∧
      (∀ t i, i = .xor ∨ i = .ks → exec i s = .next t → t.fatal = false → s.lifecycle = .exhausted →
        t.lifecycle = .exhausted ∧ (64 - s.next.val < s.a2.toNat → t.cause = .keystreamExhausted ∧ t.term = true)))

/-! ### The invariant and the parallel scheduler -/

/-- The reset state meets the invariant (R53, R39). It rests on the model's choices too: the parameters of State.reset (log
entry 1), the empty canonical memory (log entry 2) and the windows of log entry 20. -/
def Obligations.ResetMeetsTheInvariant : Prop := State.reset.Inv

/-- Every step, of the core in either way, of the host and of the platform, keeps the invariant: R39, the canonical form and
the bounds of the buffer memory, and the scheduler's bookkeeping (R197: at most MAXW workers run; R199, R203: every chunk is pending,
running or done, once; R200: every worker's counter). -/
def Obligations.EveryStepKeepsTheInvariant : Prop :=
  ∀ s t : State, s.Inv → step s = .next t → t.Inv

/-- R195 and R207: no worker ever computes the block at index 2^64 − 1, and no step of the workers or the reposition sets
EXH or TERM. -/
def Obligations.WorkersNeverReachTheLastBlock : Prop :=
  ∀ (s : State) (j : Job) (r : Region), s.Inv → s.phase = .running j → j.stage = .region r →
    (∀ w ∈ r.running, 0 < w.left → w.ctr.toNat ≤ 2 ^ 64 - 2 ∧ (w.advance).ctr.toNat = w.ctr.toNat + 1) ∧
    ∀ pick, (s.jobStep j pick).exh = false ∧ (s.jobStep j pick).term = false

/-- R201: a block step of a worker writes only bytes of its own chunk, at command offsets i0 + k·CB .. i0 + (k+1)·CB − 1,
and each byte of the block it writes is source XOR the keystream byte of its counter. -/
def Obligations.WorkerWritesOnlyItsOwnChunk : Prop :=
  ∀ (s : State) (j : Job) (r : Region) (w : Worker), s.Inv → s.phase = .running j → j.stage = .region r →
    w ∈ r.running → 0 < w.left →
    (∀ a, a < j.dst + r.off + w.k * (64 * s.bpc.toNat) ∨ j.dst + r.off + (w.k + 1) * (64 * s.bpc.toNat) ≤ a →
      (w.writeBlock j r.off s.bpc.toNat s.mem).read a = s.mem.read a) ∧
    (∀ t : Fin 64, (w.writeBlock j r.off s.bpc.toNat s.mem).read (j.dst + w.offset r.off s.bpc.toNat + t.val) =
      (if j.zero then 0 else s.mem.read (j.src + w.offset r.off s.bpc.toNat + t.val)) ^^^ (s.blockAt w.ctr)[t])

/-- R210 and R202: an XOR or KS carried out in atomic steps, with the workers' steps picked in any order, on any lanes and
with any tuning, ends, when it has ended, in the state the whole command gives: every byte, every register, CAUSE and RES0. -/
def Obligations.EveryInterleavingEndsLikeTheSequentialEngine : Prop :=
  ∀ (s t : State) (w : Word) (i : Instr) (picks : List Nat) (n : Nat), s.Inv → s.phase = .accepted w →
    decode w = .ok i → s.agenda = picks.map .fine → n ≤ picks.length → steps n s = .next t → t.phase = .idle →
    exec i { s with agenda := t.agenda } = .next t

/-- R203 and R288: a command carried out in atomic steps completes, whatever the picks, within 2·L + 4 of them (L the
length in A2): the barrier of a region is reached under every schedule. The bound counts the three steps of the sequencer
that the model adds to R288's (DESIGN CHOICE, log entry 8), and every pick selects an enabled step (DEDUCED, log entry
16). -/
def Obligations.EveryInterleavingCompletes : Prop :=
  ∀ (s : State) (w : Word) (i : Instr) (picks : List Nat), s.Inv → s.phase = .accepted w → decode w = .ok i →
    s.agenda = picks.map .fine → 2 * s.a2.toNat + 4 ≤ picks.length →
    ∃ n t, n ≤ 2 * s.a2.toNat + 4 ∧ steps n s = .next t ∧ t.phase = .idle

/-! ### Assembler -/

/-- R96 with R85, R86, R95 and R97: the host write sequence of a well-formed line, on an idle core, writes each operand to
the argument register the table of R85 gives it, leaves the argument registers the command ignores, and starts the line's
command, its word being R83's; for every command and every pseudo-command. Nothing else changes but the past memories an
incoherent platform may show (log entry 21). -/
def Obligations.HostWriteSequenceStartsTheCommand : Prop :=
  ∀ (a : Asm) (ws : List HostAccess) (s : State) (rest : List Turn), a.assemble = some ws → s.phase = .idle →
    s.agenda = ws.map .host ++ rest →
    ∃ t, steps ws.length s = .next t ∧
      t = { s with
        a0 := t.a0, a1 := t.a1, a2 := t.a2, a3 := t.a3, phase := t.phase, agenda := rest, past := s.mem :: s.past } ∧
      match a with
      | .command (.init ka na kl nl) => t.startedFrom s (some ka) (some na) (some kl) (some nl) 0x01
      | .command (.keysetup ka kl) => t.startedFrom s (some ka) none (some kl) none 0x02
      | .command (.ivsetup na nl) => t.startedFrom s (some na) none (some nl) none 0x03
      | .command (.setrounds r) => t.startedFrom s none none none none (0x04 + 2 ^ 16 * r)
      | .command (.seek n) => t.startedFrom s (some (n % 2 ^ 32)) (some (n / 2 ^ 32)) none none 0x05
      | .command .getctr => t.startedFrom s none none none none 0x06
      | .command (.tune par bpc maxw) => t.startedFrom s (some bpc) (some maxw) none none (0x07 + 2 ^ 8 * par)
      | .command (.xor src dst len dl) => t.startedFrom s (some src) (some dst) (some len) (some dl) 0x08
      | .command (.ks dst len) => t.startedFrom s none (some dst) (some len) none 0x09
      | .pseudo (.new ka na kl nl) => t.startedFrom s (some ka) (some na) (some kl) (some nl) 0x01
      | .pseudo (.encrypt src dst len dl) => t.startedFrom s (some src) (some dst) (some len) (some dl) 0x08
      | .pseudo (.decrypt src dst len dl) => t.startedFrom s (some src) (some dst) (some len) (some dl) 0x08
      | .pseudo (.xorkeystream src dst len) => t.startedFrom s (some src) (some dst) (some len) (some len) 0x08
      | .pseudo (.encryptip buf len) => t.startedFrom s (some buf) (some buf) (some len) (some len) 0x08
      | .pseudo (.keystream dst len) => t.startedFrom s none (some dst) (some len) none 0x09
      | .pseudo (.read dst len) => t.startedFrom s none (some dst) (some len) none 0x09

/-! ### The host's address space -/

/-- R68: an access at an address of the host's space is the register access at the offset from REG_BASE, or, one byte wide
(log entry 12), the buffer access at the address from BUF_BASE, so that the core's own address 0 is at BUF_BASE; an access
that reaches neither is refused (log entry 20). -/
def Obligations.BusAccessesReachTheWindowAndTheBuffer : Prop :=
  ∀ (s : State) (addr width : Nat) (v : Word) (rest : List Turn), s.cfg.ok →
    (s.agenda = .bus (.read addr width) :: rest →
      (∀ offset, offset < 0x40 → addr = s.cfg.regBase + offset →
        step s = step { s with agenda := .host (.readReg offset width) :: rest }) ∧
      (∀ a, a < s.cfg.memSize → addr = s.cfg.bufBase + a → width = 8 →
        step s = step { s with agenda := .host (.readMem a) :: rest }) ∧
      ((∀ offset, offset < 0x40 → addr ≠ s.cfg.regBase + offset) →
        (width ≠ 8 ∨ ∀ a, a < s.cfg.memSize → addr ≠ s.cfg.bufBase + a) → step s = .refused .busAccessNotRouted)) ∧
    (s.agenda = .bus (.write addr width v) :: rest →
      (∀ offset, offset < 0x40 → addr = s.cfg.regBase + offset →
        step s = step { s with agenda := .host (.writeReg offset width v) :: rest }) ∧
      (∀ a, a < s.cfg.memSize → addr = s.cfg.bufBase + a → width = 8 →
        step s = step { s with agenda := .host (.writeMem a (v.setWidth 8)) :: rest }) ∧
      ((∀ offset, offset < 0x40 → addr ≠ s.cfg.regBase + offset) →
        (width ≠ 8 ∨ ∀ a, a < s.cfg.memSize → addr ≠ s.cfg.bufBase + a) → step s = .refused .busAccessNotRouted))
end

