-- ==== Sys2Proof/Laws/State.lean ====
section
/-! SUPPORT. One lemma per field per update of the state, true by unfolding, so that no proof unfolds a record update. A
field of the engine is reached through `toEngine`. -/

namespace Sys2Proof.Machine

/-! ### Ending a command -/

@[simp] theorem State.finish_toEngine (s : State) (c : Cause) (r0 r1 : Word) : (s.finish c r0 r1).toEngine = s.toEngine := rfl
@[simp] theorem State.finish_keyset (s : State) (c : Cause) (r0 r1 : Word) : (s.finish c r0 r1).keyset = s.keyset := rfl
@[simp] theorem State.finish_ivset (s : State) (c : Cause) (r0 r1 : Word) : (s.finish c r0 r1).ivset = s.ivset := rfl
@[simp] theorem State.finish_key256 (s : State) (c : Cause) (r0 r1 : Word) : (s.finish c r0 r1).key256 = s.key256 := rfl
@[simp] theorem State.finish_fatal (s : State) (c : Cause) (r0 r1 : Word) : (s.finish c r0 r1).fatal = (s.fatal || c.isFatal) := rfl
@[simp] theorem State.finish_ovr (s : State) (c : Cause) (r0 r1 : Word) : (s.finish c r0 r1).ovr = s.ovr := rfl
@[simp] theorem State.finish_parEn (s : State) (c : Cause) (r0 r1 : Word) : (s.finish c r0 r1).parEn = s.parEn := rfl
@[simp] theorem State.finish_bpc (s : State) (c : Cause) (r0 r1 : Word) : (s.finish c r0 r1).bpc = s.bpc := rfl
@[simp] theorem State.finish_maxw (s : State) (c : Cause) (r0 r1 : Word) : (s.finish c r0 r1).maxw = s.maxw := rfl
@[simp] theorem State.finish_cause (s : State) (c : Cause) (r0 r1 : Word) : (s.finish c r0 r1).cause = c := rfl
@[simp] theorem State.finish_res0 (s : State) (c : Cause) (r0 r1 : Word) : (s.finish c r0 r1).res0 = r0 := rfl
@[simp] theorem State.finish_res1 (s : State) (c : Cause) (r0 r1 : Word) : (s.finish c r0 r1).res1 = r1 := rfl
@[simp] theorem State.finish_a0 (s : State) (c : Cause) (r0 r1 : Word) : (s.finish c r0 r1).a0 = s.a0 := rfl
@[simp] theorem State.finish_a1 (s : State) (c : Cause) (r0 r1 : Word) : (s.finish c r0 r1).a1 = s.a1 := rfl
@[simp] theorem State.finish_a2 (s : State) (c : Cause) (r0 r1 : Word) : (s.finish c r0 r1).a2 = s.a2 := rfl
@[simp] theorem State.finish_a3 (s : State) (c : Cause) (r0 r1 : Word) : (s.finish c r0 r1).a3 = s.a3 := rfl
@[simp] theorem State.finish_phase (s : State) (c : Cause) (r0 r1 : Word) : (s.finish c r0 r1).phase = .idle := rfl
@[simp] theorem State.finish_cfg (s : State) (c : Cause) (r0 r1 : Word) : (s.finish c r0 r1).cfg = s.cfg := rfl
@[simp] theorem State.finish_agenda (s : State) (c : Cause) (r0 r1 : Word) : (s.finish c r0 r1).agenda = s.agenda := rfl
@[simp] theorem State.finish_rdata (s : State) (c : Cause) (r0 r1 : Word) : (s.finish c r0 r1).rdata = s.rdata := rfl
@[simp] theorem State.finish_draws (s : State) (c : Cause) (r0 r1 : Word) : (s.finish c r0 r1).draws = s.draws := rfl
@[simp] theorem State.finish_past (s : State) (c : Cause) (r0 r1 : Word) : (s.finish c r0 r1).past = s.past := rfl
@[simp] theorem State.dropCommand_toEngine (s : State) : (s.dropCommand).toEngine = s.toEngine := rfl
@[simp] theorem State.dropCommand_keyset (s : State) : (s.dropCommand).keyset = s.keyset := rfl
@[simp] theorem State.dropCommand_ivset (s : State) : (s.dropCommand).ivset = s.ivset := rfl
@[simp] theorem State.dropCommand_key256 (s : State) : (s.dropCommand).key256 = s.key256 := rfl
@[simp] theorem State.dropCommand_fatal (s : State) : (s.dropCommand).fatal = s.fatal := rfl
@[simp] theorem State.dropCommand_ovr (s : State) : (s.dropCommand).ovr = s.ovr := rfl
@[simp] theorem State.dropCommand_parEn (s : State) : (s.dropCommand).parEn = s.parEn := rfl
@[simp] theorem State.dropCommand_bpc (s : State) : (s.dropCommand).bpc = s.bpc := rfl
@[simp] theorem State.dropCommand_maxw (s : State) : (s.dropCommand).maxw = s.maxw := rfl
@[simp] theorem State.dropCommand_cause (s : State) : (s.dropCommand).cause = s.cause := rfl
@[simp] theorem State.dropCommand_res0 (s : State) : (s.dropCommand).res0 = s.res0 := rfl
@[simp] theorem State.dropCommand_res1 (s : State) : (s.dropCommand).res1 = s.res1 := rfl
@[simp] theorem State.dropCommand_a0 (s : State) : (s.dropCommand).a0 = s.a0 := rfl
@[simp] theorem State.dropCommand_a1 (s : State) : (s.dropCommand).a1 = s.a1 := rfl
@[simp] theorem State.dropCommand_a2 (s : State) : (s.dropCommand).a2 = s.a2 := rfl
@[simp] theorem State.dropCommand_a3 (s : State) : (s.dropCommand).a3 = s.a3 := rfl
@[simp] theorem State.dropCommand_phase (s : State) : (s.dropCommand).phase = .idle := rfl
@[simp] theorem State.dropCommand_cfg (s : State) : (s.dropCommand).cfg = s.cfg := rfl
@[simp] theorem State.dropCommand_agenda (s : State) : (s.dropCommand).agenda = s.agenda := rfl
@[simp] theorem State.dropCommand_rdata (s : State) : (s.dropCommand).rdata = s.rdata := rfl
@[simp] theorem State.dropCommand_draws (s : State) : (s.dropCommand).draws = s.draws := rfl
@[simp] theorem State.dropCommand_past (s : State) : (s.dropCommand).past = s.past := rfl
@[simp] theorem State.rejectedWith_toEngine (s : State) (c : Cause) : (s.rejectedWith c).toEngine = s.toEngine := rfl
@[simp] theorem State.rejectedWith_keyset (s : State) (c : Cause) : (s.rejectedWith c).keyset = s.keyset := rfl
@[simp] theorem State.rejectedWith_ivset (s : State) (c : Cause) : (s.rejectedWith c).ivset = s.ivset := rfl
@[simp] theorem State.rejectedWith_key256 (s : State) (c : Cause) : (s.rejectedWith c).key256 = s.key256 := rfl
@[simp] theorem State.rejectedWith_fatal (s : State) (c : Cause) : (s.rejectedWith c).fatal = true := rfl
@[simp] theorem State.rejectedWith_ovr (s : State) (c : Cause) : (s.rejectedWith c).ovr = s.ovr := rfl
@[simp] theorem State.rejectedWith_parEn (s : State) (c : Cause) : (s.rejectedWith c).parEn = s.parEn := rfl
@[simp] theorem State.rejectedWith_bpc (s : State) (c : Cause) : (s.rejectedWith c).bpc = s.bpc := rfl
@[simp] theorem State.rejectedWith_maxw (s : State) (c : Cause) : (s.rejectedWith c).maxw = s.maxw := rfl
@[simp] theorem State.rejectedWith_cause (s : State) (c : Cause) : (s.rejectedWith c).cause = c := rfl
@[simp] theorem State.rejectedWith_res0 (s : State) (c : Cause) : (s.rejectedWith c).res0 = 0 := rfl
@[simp] theorem State.rejectedWith_res1 (s : State) (c : Cause) : (s.rejectedWith c).res1 = 0 := rfl
@[simp] theorem State.rejectedWith_a0 (s : State) (c : Cause) : (s.rejectedWith c).a0 = s.a0 := rfl
@[simp] theorem State.rejectedWith_a1 (s : State) (c : Cause) : (s.rejectedWith c).a1 = s.a1 := rfl
@[simp] theorem State.rejectedWith_a2 (s : State) (c : Cause) : (s.rejectedWith c).a2 = s.a2 := rfl
@[simp] theorem State.rejectedWith_a3 (s : State) (c : Cause) : (s.rejectedWith c).a3 = s.a3 := rfl
@[simp] theorem State.rejectedWith_phase (s : State) (c : Cause) : (s.rejectedWith c).phase = .idle := rfl
@[simp] theorem State.rejectedWith_cfg (s : State) (c : Cause) : (s.rejectedWith c).cfg = s.cfg := rfl
@[simp] theorem State.rejectedWith_agenda (s : State) (c : Cause) : (s.rejectedWith c).agenda = s.agenda := rfl
@[simp] theorem State.rejectedWith_rdata (s : State) (c : Cause) : (s.rejectedWith c).rdata = s.rdata := rfl
@[simp] theorem State.rejectedWith_draws (s : State) (c : Cause) : (s.rejectedWith c).draws = s.draws := rfl
@[simp] theorem State.rejectedWith_past (s : State) (c : Cause) : (s.rejectedWith c).past = s.past := rfl

/-! ### Turns -/

@[simp] theorem State.nextTurn_toEngine (s : State) : (s.nextTurn).toEngine = s.toEngine := rfl
@[simp] theorem State.nextTurn_keyset (s : State) : (s.nextTurn).keyset = s.keyset := rfl
@[simp] theorem State.nextTurn_ivset (s : State) : (s.nextTurn).ivset = s.ivset := rfl
@[simp] theorem State.nextTurn_key256 (s : State) : (s.nextTurn).key256 = s.key256 := rfl
@[simp] theorem State.nextTurn_fatal (s : State) : (s.nextTurn).fatal = s.fatal := rfl
@[simp] theorem State.nextTurn_ovr (s : State) : (s.nextTurn).ovr = s.ovr := rfl
@[simp] theorem State.nextTurn_parEn (s : State) : (s.nextTurn).parEn = s.parEn := rfl
@[simp] theorem State.nextTurn_bpc (s : State) : (s.nextTurn).bpc = s.bpc := rfl
@[simp] theorem State.nextTurn_maxw (s : State) : (s.nextTurn).maxw = s.maxw := rfl
@[simp] theorem State.nextTurn_cause (s : State) : (s.nextTurn).cause = s.cause := rfl
@[simp] theorem State.nextTurn_res0 (s : State) : (s.nextTurn).res0 = s.res0 := rfl
@[simp] theorem State.nextTurn_res1 (s : State) : (s.nextTurn).res1 = s.res1 := rfl
@[simp] theorem State.nextTurn_a0 (s : State) : (s.nextTurn).a0 = s.a0 := rfl
@[simp] theorem State.nextTurn_a1 (s : State) : (s.nextTurn).a1 = s.a1 := rfl
@[simp] theorem State.nextTurn_a2 (s : State) : (s.nextTurn).a2 = s.a2 := rfl
@[simp] theorem State.nextTurn_a3 (s : State) : (s.nextTurn).a3 = s.a3 := rfl
@[simp] theorem State.nextTurn_phase (s : State) : (s.nextTurn).phase = s.phase := rfl
@[simp] theorem State.nextTurn_cfg (s : State) : (s.nextTurn).cfg = s.cfg := rfl
@[simp] theorem State.nextTurn_agenda (s : State) : (s.nextTurn).agenda = s.agenda.tail := rfl
@[simp] theorem State.nextTurn_rdata (s : State) : (s.nextTurn).rdata = s.rdata := rfl
@[simp] theorem State.nextTurn_draws (s : State) : (s.nextTurn).draws = s.draws := rfl
@[simp] theorem State.nextTurn_past (s : State) : (s.nextTurn).past = s.past := rfl
@[simp] theorem State.latchWord_toEngine (s : State) (w : Word) : (s.latchWord w).toEngine = s.toEngine := rfl
@[simp] theorem State.latchWord_keyset (s : State) (w : Word) : (s.latchWord w).keyset = s.keyset := rfl
@[simp] theorem State.latchWord_ivset (s : State) (w : Word) : (s.latchWord w).ivset = s.ivset := rfl
@[simp] theorem State.latchWord_key256 (s : State) (w : Word) : (s.latchWord w).key256 = s.key256 := rfl
@[simp] theorem State.latchWord_fatal (s : State) (w : Word) : (s.latchWord w).fatal = s.fatal := rfl
@[simp] theorem State.latchWord_ovr (s : State) (w : Word) : (s.latchWord w).ovr = s.ovr := rfl
@[simp] theorem State.latchWord_parEn (s : State) (w : Word) : (s.latchWord w).parEn = s.parEn := rfl
@[simp] theorem State.latchWord_bpc (s : State) (w : Word) : (s.latchWord w).bpc = s.bpc := rfl
@[simp] theorem State.latchWord_maxw (s : State) (w : Word) : (s.latchWord w).maxw = s.maxw := rfl
@[simp] theorem State.latchWord_cause (s : State) (w : Word) : (s.latchWord w).cause = s.cause := rfl
@[simp] theorem State.latchWord_res0 (s : State) (w : Word) : (s.latchWord w).res0 = s.res0 := rfl
@[simp] theorem State.latchWord_res1 (s : State) (w : Word) : (s.latchWord w).res1 = s.res1 := rfl
@[simp] theorem State.latchWord_a0 (s : State) (w : Word) : (s.latchWord w).a0 = s.a0 := rfl
@[simp] theorem State.latchWord_a1 (s : State) (w : Word) : (s.latchWord w).a1 = s.a1 := rfl
@[simp] theorem State.latchWord_a2 (s : State) (w : Word) : (s.latchWord w).a2 = s.a2 := rfl
@[simp] theorem State.latchWord_a3 (s : State) (w : Word) : (s.latchWord w).a3 = s.a3 := rfl
@[simp] theorem State.latchWord_phase (s : State) (w : Word) : (s.latchWord w).phase = .accepted w := rfl
@[simp] theorem State.latchWord_cfg (s : State) (w : Word) : (s.latchWord w).cfg = s.cfg := rfl
@[simp] theorem State.latchWord_agenda (s : State) (w : Word) : (s.latchWord w).agenda = (.core :: s.agenda) := rfl
@[simp] theorem State.latchWord_rdata (s : State) (w : Word) : (s.latchWord w).rdata = s.rdata := rfl
@[simp] theorem State.latchWord_draws (s : State) (w : Word) : (s.latchWord w).draws = s.draws := rfl
@[simp] theorem State.latchWord_past (s : State) (w : Word) : (s.latchWord w).past = s.mem :: s.past := rfl
@[simp] theorem State.accept_toEngine (s : State) (w : Word) : (s.accept w).toEngine = s.toEngine := rfl
@[simp] theorem State.accept_keyset (s : State) (w : Word) : (s.accept w).keyset = s.keyset := rfl
@[simp] theorem State.accept_ivset (s : State) (w : Word) : (s.accept w).ivset = s.ivset := rfl
@[simp] theorem State.accept_key256 (s : State) (w : Word) : (s.accept w).key256 = s.key256 := rfl
@[simp] theorem State.accept_fatal (s : State) (w : Word) : (s.accept w).fatal = s.fatal := rfl
@[simp] theorem State.accept_ovr (s : State) (w : Word) : (s.accept w).ovr = s.ovr := rfl
@[simp] theorem State.accept_parEn (s : State) (w : Word) : (s.accept w).parEn = s.parEn := rfl
@[simp] theorem State.accept_bpc (s : State) (w : Word) : (s.accept w).bpc = s.bpc := rfl
@[simp] theorem State.accept_maxw (s : State) (w : Word) : (s.accept w).maxw = s.maxw := rfl
@[simp] theorem State.accept_cause (s : State) (w : Word) : (s.accept w).cause = s.cause := rfl
@[simp] theorem State.accept_res0 (s : State) (w : Word) : (s.accept w).res0 = s.res0 := rfl
@[simp] theorem State.accept_res1 (s : State) (w : Word) : (s.accept w).res1 = s.res1 := rfl
@[simp] theorem State.accept_a0 (s : State) (w : Word) : (s.accept w).a0 = s.a0 := rfl
@[simp] theorem State.accept_a1 (s : State) (w : Word) : (s.accept w).a1 = s.a1 := rfl
@[simp] theorem State.accept_a2 (s : State) (w : Word) : (s.accept w).a2 = s.a2 := rfl
@[simp] theorem State.accept_a3 (s : State) (w : Word) : (s.accept w).a3 = s.a3 := rfl
@[simp] theorem State.accept_phase (s : State) (w : Word) : (s.accept w).phase = .accepted w := rfl
@[simp] theorem State.accept_cfg (s : State) (w : Word) : (s.accept w).cfg = s.cfg := rfl
@[simp] theorem State.accept_past (s : State) (w : Word) : (s.accept w).past = s.mem :: s.past := rfl
@[simp] theorem State.accept_agenda (s : State) (w : Word) : (s.accept w).agenda = s.agenda := rfl
@[simp] theorem State.accept_rdata (s : State) (w : Word) : (s.accept w).rdata = s.rdata := rfl
@[simp] theorem State.accept_draws (s : State) (w : Word) : (s.accept w).draws = s.draws := rfl
@[simp] theorem State.syncPlatform_toEngine (s : State) : (s.syncPlatform).toEngine = s.toEngine := rfl
@[simp] theorem State.syncPlatform_keyset (s : State) : (s.syncPlatform).keyset = s.keyset := rfl
@[simp] theorem State.syncPlatform_ivset (s : State) : (s.syncPlatform).ivset = s.ivset := rfl
@[simp] theorem State.syncPlatform_key256 (s : State) : (s.syncPlatform).key256 = s.key256 := rfl
@[simp] theorem State.syncPlatform_fatal (s : State) : (s.syncPlatform).fatal = s.fatal := rfl
@[simp] theorem State.syncPlatform_ovr (s : State) : (s.syncPlatform).ovr = s.ovr := rfl
@[simp] theorem State.syncPlatform_parEn (s : State) : (s.syncPlatform).parEn = s.parEn := rfl
@[simp] theorem State.syncPlatform_bpc (s : State) : (s.syncPlatform).bpc = s.bpc := rfl
@[simp] theorem State.syncPlatform_maxw (s : State) : (s.syncPlatform).maxw = s.maxw := rfl
@[simp] theorem State.syncPlatform_cause (s : State) : (s.syncPlatform).cause = s.cause := rfl
@[simp] theorem State.syncPlatform_res0 (s : State) : (s.syncPlatform).res0 = s.res0 := rfl
@[simp] theorem State.syncPlatform_res1 (s : State) : (s.syncPlatform).res1 = s.res1 := rfl
@[simp] theorem State.syncPlatform_a0 (s : State) : (s.syncPlatform).a0 = s.a0 := rfl
@[simp] theorem State.syncPlatform_a1 (s : State) : (s.syncPlatform).a1 = s.a1 := rfl
@[simp] theorem State.syncPlatform_a2 (s : State) : (s.syncPlatform).a2 = s.a2 := rfl
@[simp] theorem State.syncPlatform_a3 (s : State) : (s.syncPlatform).a3 = s.a3 := rfl
@[simp] theorem State.syncPlatform_phase (s : State) : (s.syncPlatform).phase = s.phase := rfl
@[simp] theorem State.syncPlatform_cfg (s : State) : (s.syncPlatform).cfg = s.cfg := rfl
@[simp] theorem State.syncPlatform_past (s : State) : (s.syncPlatform).past = [s.mem] := rfl
@[simp] theorem State.syncPlatform_agenda (s : State) : (s.syncPlatform).agenda = s.agenda := rfl
@[simp] theorem State.syncPlatform_rdata (s : State) : (s.syncPlatform).rdata = s.rdata := rfl
@[simp] theorem State.syncPlatform_draws (s : State) : (s.syncPlatform).draws = s.draws := rfl

/-! ### Context registers -/

@[simp] theorem State.loadKey_toEngine (s : State) (k : List Byte) (long : Bool) : (s.loadKey k long).toEngine = { s.toEngine with key := Vector.ofFn fun i : Fin 8 => keyWord k long i, const := if long then sigma else tau } := rfl
@[simp] theorem State.loadKey_keyset (s : State) (k : List Byte) (long : Bool) : (s.loadKey k long).keyset = true := rfl
@[simp] theorem State.loadKey_ivset (s : State) (k : List Byte) (long : Bool) : (s.loadKey k long).ivset = s.ivset := rfl
@[simp] theorem State.loadKey_key256 (s : State) (k : List Byte) (long : Bool) : (s.loadKey k long).key256 = long := rfl
@[simp] theorem State.loadKey_fatal (s : State) (k : List Byte) (long : Bool) : (s.loadKey k long).fatal = s.fatal := rfl
@[simp] theorem State.loadKey_ovr (s : State) (k : List Byte) (long : Bool) : (s.loadKey k long).ovr = s.ovr := rfl
@[simp] theorem State.loadKey_parEn (s : State) (k : List Byte) (long : Bool) : (s.loadKey k long).parEn = s.parEn := rfl
@[simp] theorem State.loadKey_bpc (s : State) (k : List Byte) (long : Bool) : (s.loadKey k long).bpc = s.bpc := rfl
@[simp] theorem State.loadKey_maxw (s : State) (k : List Byte) (long : Bool) : (s.loadKey k long).maxw = s.maxw := rfl
@[simp] theorem State.loadKey_cause (s : State) (k : List Byte) (long : Bool) : (s.loadKey k long).cause = s.cause := rfl
@[simp] theorem State.loadKey_res0 (s : State) (k : List Byte) (long : Bool) : (s.loadKey k long).res0 = s.res0 := rfl
@[simp] theorem State.loadKey_res1 (s : State) (k : List Byte) (long : Bool) : (s.loadKey k long).res1 = s.res1 := rfl
@[simp] theorem State.loadKey_a0 (s : State) (k : List Byte) (long : Bool) : (s.loadKey k long).a0 = s.a0 := rfl
@[simp] theorem State.loadKey_a1 (s : State) (k : List Byte) (long : Bool) : (s.loadKey k long).a1 = s.a1 := rfl
@[simp] theorem State.loadKey_a2 (s : State) (k : List Byte) (long : Bool) : (s.loadKey k long).a2 = s.a2 := rfl
@[simp] theorem State.loadKey_a3 (s : State) (k : List Byte) (long : Bool) : (s.loadKey k long).a3 = s.a3 := rfl
@[simp] theorem State.loadKey_phase (s : State) (k : List Byte) (long : Bool) : (s.loadKey k long).phase = s.phase := rfl
@[simp] theorem State.loadKey_cfg (s : State) (k : List Byte) (long : Bool) : (s.loadKey k long).cfg = s.cfg := rfl
@[simp] theorem State.loadKey_agenda (s : State) (k : List Byte) (long : Bool) : (s.loadKey k long).agenda = s.agenda := rfl
@[simp] theorem State.loadKey_rdata (s : State) (k : List Byte) (long : Bool) : (s.loadKey k long).rdata = s.rdata := rfl
@[simp] theorem State.loadKey_draws (s : State) (k : List Byte) (long : Bool) : (s.loadKey k long).draws = s.draws := rfl
@[simp] theorem State.loadKey_past (s : State) (k : List Byte) (long : Bool) : (s.loadKey k long).past = s.past := rfl
@[simp] theorem State.loadNonce_toEngine (s : State) (v : List Byte) : (s.loadNonce v).toEngine = { s.toEngine with nonce := #v[le32 v 0, le32 v 4] } := rfl
@[simp] theorem State.loadNonce_keyset (s : State) (v : List Byte) : (s.loadNonce v).keyset = s.keyset := rfl
@[simp] theorem State.loadNonce_ivset (s : State) (v : List Byte) : (s.loadNonce v).ivset = true := rfl
@[simp] theorem State.loadNonce_key256 (s : State) (v : List Byte) : (s.loadNonce v).key256 = s.key256 := rfl
@[simp] theorem State.loadNonce_fatal (s : State) (v : List Byte) : (s.loadNonce v).fatal = s.fatal := rfl
@[simp] theorem State.loadNonce_ovr (s : State) (v : List Byte) : (s.loadNonce v).ovr = s.ovr := rfl
@[simp] theorem State.loadNonce_parEn (s : State) (v : List Byte) : (s.loadNonce v).parEn = s.parEn := rfl
@[simp] theorem State.loadNonce_bpc (s : State) (v : List Byte) : (s.loadNonce v).bpc = s.bpc := rfl
@[simp] theorem State.loadNonce_maxw (s : State) (v : List Byte) : (s.loadNonce v).maxw = s.maxw := rfl
@[simp] theorem State.loadNonce_cause (s : State) (v : List Byte) : (s.loadNonce v).cause = s.cause := rfl
@[simp] theorem State.loadNonce_res0 (s : State) (v : List Byte) : (s.loadNonce v).res0 = s.res0 := rfl
@[simp] theorem State.loadNonce_res1 (s : State) (v : List Byte) : (s.loadNonce v).res1 = s.res1 := rfl
@[simp] theorem State.loadNonce_a0 (s : State) (v : List Byte) : (s.loadNonce v).a0 = s.a0 := rfl
@[simp] theorem State.loadNonce_a1 (s : State) (v : List Byte) : (s.loadNonce v).a1 = s.a1 := rfl
@[simp] theorem State.loadNonce_a2 (s : State) (v : List Byte) : (s.loadNonce v).a2 = s.a2 := rfl
@[simp] theorem State.loadNonce_a3 (s : State) (v : List Byte) : (s.loadNonce v).a3 = s.a3 := rfl
@[simp] theorem State.loadNonce_phase (s : State) (v : List Byte) : (s.loadNonce v).phase = s.phase := rfl
@[simp] theorem State.loadNonce_cfg (s : State) (v : List Byte) : (s.loadNonce v).cfg = s.cfg := rfl
@[simp] theorem State.loadNonce_agenda (s : State) (v : List Byte) : (s.loadNonce v).agenda = s.agenda := rfl
@[simp] theorem State.loadNonce_rdata (s : State) (v : List Byte) : (s.loadNonce v).rdata = s.rdata := rfl
@[simp] theorem State.loadNonce_draws (s : State) (v : List Byte) : (s.loadNonce v).draws = s.draws := rfl
@[simp] theorem State.loadNonce_past (s : State) (v : List Byte) : (s.loadNonce v).past = s.past := rfl
@[simp] theorem State.seekTo_toEngine (s : State) (n : BlockIndex) : (s.seekTo n).toEngine = s.toEngine.seekTo n := rfl
@[simp] theorem State.seekTo_keyset (s : State) (n : BlockIndex) : (s.seekTo n).keyset = s.keyset := rfl
@[simp] theorem State.seekTo_ivset (s : State) (n : BlockIndex) : (s.seekTo n).ivset = s.ivset := rfl
@[simp] theorem State.seekTo_key256 (s : State) (n : BlockIndex) : (s.seekTo n).key256 = s.key256 := rfl
@[simp] theorem State.seekTo_fatal (s : State) (n : BlockIndex) : (s.seekTo n).fatal = s.fatal := rfl
@[simp] theorem State.seekTo_ovr (s : State) (n : BlockIndex) : (s.seekTo n).ovr = s.ovr := rfl
@[simp] theorem State.seekTo_parEn (s : State) (n : BlockIndex) : (s.seekTo n).parEn = s.parEn := rfl
@[simp] theorem State.seekTo_bpc (s : State) (n : BlockIndex) : (s.seekTo n).bpc = s.bpc := rfl
@[simp] theorem State.seekTo_maxw (s : State) (n : BlockIndex) : (s.seekTo n).maxw = s.maxw := rfl
@[simp] theorem State.seekTo_cause (s : State) (n : BlockIndex) : (s.seekTo n).cause = s.cause := rfl
@[simp] theorem State.seekTo_res0 (s : State) (n : BlockIndex) : (s.seekTo n).res0 = s.res0 := rfl
@[simp] theorem State.seekTo_res1 (s : State) (n : BlockIndex) : (s.seekTo n).res1 = s.res1 := rfl
@[simp] theorem State.seekTo_a0 (s : State) (n : BlockIndex) : (s.seekTo n).a0 = s.a0 := rfl
@[simp] theorem State.seekTo_a1 (s : State) (n : BlockIndex) : (s.seekTo n).a1 = s.a1 := rfl
@[simp] theorem State.seekTo_a2 (s : State) (n : BlockIndex) : (s.seekTo n).a2 = s.a2 := rfl
@[simp] theorem State.seekTo_a3 (s : State) (n : BlockIndex) : (s.seekTo n).a3 = s.a3 := rfl
@[simp] theorem State.seekTo_phase (s : State) (n : BlockIndex) : (s.seekTo n).phase = s.phase := rfl
@[simp] theorem State.seekTo_cfg (s : State) (n : BlockIndex) : (s.seekTo n).cfg = s.cfg := rfl
@[simp] theorem State.seekTo_agenda (s : State) (n : BlockIndex) : (s.seekTo n).agenda = s.agenda := rfl
@[simp] theorem State.seekTo_rdata (s : State) (n : BlockIndex) : (s.seekTo n).rdata = s.rdata := rfl
@[simp] theorem State.seekTo_draws (s : State) (n : BlockIndex) : (s.seekTo n).draws = s.draws := rfl
@[simp] theorem State.seekTo_past (s : State) (n : BlockIndex) : (s.seekTo n).past = s.past := rfl

/-! ### The engine -/

@[simp] theorem Engine.seekTo_const (e : Engine) (n : BlockIndex) : (e.seekTo n).const = e.const := rfl
@[simp] theorem Engine.seekTo_key (e : Engine) (n : BlockIndex) : (e.seekTo n).key = e.key := rfl
@[simp] theorem Engine.seekTo_ctr (e : Engine) (n : BlockIndex) : (e.seekTo n).ctr = n := rfl
@[simp] theorem Engine.seekTo_nonce (e : Engine) (n : BlockIndex) : (e.seekTo n).nonce = e.nonce := rfl
@[simp] theorem Engine.seekTo_rounds (e : Engine) (n : BlockIndex) : (e.seekTo n).rounds = e.rounds := rfl
@[simp] theorem Engine.seekTo_outbuf (e : Engine) (n : BlockIndex) : (e.seekTo n).outbuf = e.outbuf := rfl
@[simp] theorem Engine.seekTo_next (e : Engine) (n : BlockIndex) : (e.seekTo n).next = 64 := rfl
@[simp] theorem Engine.seekTo_exh (e : Engine) (n : BlockIndex) : (e.seekTo n).exh = false := rfl
@[simp] theorem Engine.seekTo_term (e : Engine) (n : BlockIndex) : (e.seekTo n).term = false := rfl
@[simp] theorem Engine.seekTo_gen (e : Engine) (n : BlockIndex) : (e.seekTo n).gen = false := rfl
@[simp] theorem Engine.seekTo_mem (e : Engine) (n : BlockIndex) : (e.seekTo n).mem = e.mem := rfl
@[simp] theorem Engine.generateBlock_const (e : Engine) : (e.generateBlock).const = e.const := rfl
@[simp] theorem Engine.generateBlock_key (e : Engine) : (e.generateBlock).key = e.key := rfl
@[simp] theorem Engine.generateBlock_ctr (e : Engine) : (e.generateBlock).ctr = (e.ctr + 1) := rfl
@[simp] theorem Engine.generateBlock_nonce (e : Engine) : (e.generateBlock).nonce = e.nonce := rfl
@[simp] theorem Engine.generateBlock_rounds (e : Engine) : (e.generateBlock).rounds = e.rounds := rfl
@[simp] theorem Engine.generateBlock_outbuf (e : Engine) : (e.generateBlock).outbuf = e.blockAt e.ctr := rfl
@[simp] theorem Engine.generateBlock_next (e : Engine) : (e.generateBlock).next = 0 := rfl
@[simp] theorem Engine.generateBlock_exh (e : Engine) : (e.generateBlock).exh = (e.exh || e.ctr + 1 = 0) := rfl
@[simp] theorem Engine.generateBlock_term (e : Engine) : (e.generateBlock).term = e.term := rfl
@[simp] theorem Engine.generateBlock_gen (e : Engine) : (e.generateBlock).gen = true := rfl
@[simp] theorem Engine.generateBlock_mem (e : Engine) : (e.generateBlock).mem = e.mem := rfl
@[simp] theorem Engine.exhaust_const (e : Engine) : (e.exhaust).const = e.const := rfl
@[simp] theorem Engine.exhaust_key (e : Engine) : (e.exhaust).key = e.key := rfl
@[simp] theorem Engine.exhaust_ctr (e : Engine) : (e.exhaust).ctr = e.ctr := rfl
@[simp] theorem Engine.exhaust_nonce (e : Engine) : (e.exhaust).nonce = e.nonce := rfl
@[simp] theorem Engine.exhaust_rounds (e : Engine) : (e.exhaust).rounds = e.rounds := rfl
@[simp] theorem Engine.exhaust_outbuf (e : Engine) : (e.exhaust).outbuf = e.outbuf := rfl
@[simp] theorem Engine.exhaust_next (e : Engine) : (e.exhaust).next = e.next := rfl
@[simp] theorem Engine.exhaust_exh (e : Engine) : (e.exhaust).exh = e.exh := rfl
@[simp] theorem Engine.exhaust_term (e : Engine) : (e.exhaust).term = true := rfl
@[simp] theorem Engine.exhaust_gen (e : Engine) : (e.exhaust).gen = e.gen := rfl
@[simp] theorem Engine.exhaust_mem (e : Engine) : (e.exhaust).mem = e.mem := rfl
@[simp] theorem Engine.reposition_const (e : Engine) (base : BlockIndex) (blocks : Nat) : (e.reposition base blocks).const = e.const := rfl
@[simp] theorem Engine.reposition_key (e : Engine) (base : BlockIndex) (blocks : Nat) : (e.reposition base blocks).key = e.key := rfl
@[simp] theorem Engine.reposition_ctr (e : Engine) (base : BlockIndex) (blocks : Nat) : (e.reposition base blocks).ctr = (base + BitVec.ofNat 64 blocks) := rfl
@[simp] theorem Engine.reposition_nonce (e : Engine) (base : BlockIndex) (blocks : Nat) : (e.reposition base blocks).nonce = e.nonce := rfl
@[simp] theorem Engine.reposition_rounds (e : Engine) (base : BlockIndex) (blocks : Nat) : (e.reposition base blocks).rounds = e.rounds := rfl
@[simp] theorem Engine.reposition_outbuf (e : Engine) (base : BlockIndex) (blocks : Nat) : (e.reposition base blocks).outbuf = e.blockAt (base + BitVec.ofNat 64 blocks - 1) := rfl
@[simp] theorem Engine.reposition_next (e : Engine) (base : BlockIndex) (blocks : Nat) : (e.reposition base blocks).next = 64 := rfl
@[simp] theorem Engine.reposition_exh (e : Engine) (base : BlockIndex) (blocks : Nat) : (e.reposition base blocks).exh = e.exh := rfl
@[simp] theorem Engine.reposition_term (e : Engine) (base : BlockIndex) (blocks : Nat) : (e.reposition base blocks).term = e.term := rfl
@[simp] theorem Engine.reposition_gen (e : Engine) (base : BlockIndex) (blocks : Nat) : (e.reposition base blocks).gen = true := rfl
@[simp] theorem Engine.reposition_mem (e : Engine) (base : BlockIndex) (blocks : Nat) : (e.reposition base blocks).mem = e.mem := rfl

/-! ### Running jobs -/

@[simp] theorem State.withRegion_toEngine (s : State) (j : Job) (r : Region) : (s.withRegion j r).toEngine = s.toEngine := rfl
@[simp] theorem State.withRegion_keyset (s : State) (j : Job) (r : Region) : (s.withRegion j r).keyset = s.keyset := rfl
@[simp] theorem State.withRegion_ivset (s : State) (j : Job) (r : Region) : (s.withRegion j r).ivset = s.ivset := rfl
@[simp] theorem State.withRegion_key256 (s : State) (j : Job) (r : Region) : (s.withRegion j r).key256 = s.key256 := rfl
@[simp] theorem State.withRegion_fatal (s : State) (j : Job) (r : Region) : (s.withRegion j r).fatal = s.fatal := rfl
@[simp] theorem State.withRegion_ovr (s : State) (j : Job) (r : Region) : (s.withRegion j r).ovr = s.ovr := rfl
@[simp] theorem State.withRegion_parEn (s : State) (j : Job) (r : Region) : (s.withRegion j r).parEn = s.parEn := rfl
@[simp] theorem State.withRegion_bpc (s : State) (j : Job) (r : Region) : (s.withRegion j r).bpc = s.bpc := rfl
@[simp] theorem State.withRegion_maxw (s : State) (j : Job) (r : Region) : (s.withRegion j r).maxw = s.maxw := rfl
@[simp] theorem State.withRegion_cause (s : State) (j : Job) (r : Region) : (s.withRegion j r).cause = s.cause := rfl
@[simp] theorem State.withRegion_res0 (s : State) (j : Job) (r : Region) : (s.withRegion j r).res0 = s.res0 := rfl
@[simp] theorem State.withRegion_res1 (s : State) (j : Job) (r : Region) : (s.withRegion j r).res1 = s.res1 := rfl
@[simp] theorem State.withRegion_a0 (s : State) (j : Job) (r : Region) : (s.withRegion j r).a0 = s.a0 := rfl
@[simp] theorem State.withRegion_a1 (s : State) (j : Job) (r : Region) : (s.withRegion j r).a1 = s.a1 := rfl
@[simp] theorem State.withRegion_a2 (s : State) (j : Job) (r : Region) : (s.withRegion j r).a2 = s.a2 := rfl
@[simp] theorem State.withRegion_a3 (s : State) (j : Job) (r : Region) : (s.withRegion j r).a3 = s.a3 := rfl
@[simp] theorem State.withRegion_phase (s : State) (j : Job) (r : Region) : (s.withRegion j r).phase = .running { j with stage := .region r } := rfl
@[simp] theorem State.withRegion_cfg (s : State) (j : Job) (r : Region) : (s.withRegion j r).cfg = s.cfg := rfl
@[simp] theorem State.withRegion_agenda (s : State) (j : Job) (r : Region) : (s.withRegion j r).agenda = s.agenda := rfl
@[simp] theorem State.withRegion_rdata (s : State) (j : Job) (r : Region) : (s.withRegion j r).rdata = s.rdata := rfl
@[simp] theorem State.withRegion_draws (s : State) (j : Job) (r : Region) : (s.withRegion j r).draws = s.draws := rfl
@[simp] theorem State.withRegion_past (s : State) (j : Job) (r : Region) : (s.withRegion j r).past = s.past := rfl
@[simp] theorem State.byteStep_toEngine (s : State) (j : Job) : (s.byteStep j).toEngine = s.toEngine.xorByte j.src j.dst j.zero j.i := rfl
@[simp] theorem State.byteStep_keyset (s : State) (j : Job) : (s.byteStep j).keyset = s.keyset := rfl
@[simp] theorem State.byteStep_ivset (s : State) (j : Job) : (s.byteStep j).ivset = s.ivset := rfl
@[simp] theorem State.byteStep_key256 (s : State) (j : Job) : (s.byteStep j).key256 = s.key256 := rfl
@[simp] theorem State.byteStep_fatal (s : State) (j : Job) : (s.byteStep j).fatal = s.fatal := rfl
@[simp] theorem State.byteStep_ovr (s : State) (j : Job) : (s.byteStep j).ovr = s.ovr := rfl
@[simp] theorem State.byteStep_parEn (s : State) (j : Job) : (s.byteStep j).parEn = s.parEn := rfl
@[simp] theorem State.byteStep_bpc (s : State) (j : Job) : (s.byteStep j).bpc = s.bpc := rfl
@[simp] theorem State.byteStep_maxw (s : State) (j : Job) : (s.byteStep j).maxw = s.maxw := rfl
@[simp] theorem State.byteStep_cause (s : State) (j : Job) : (s.byteStep j).cause = s.cause := rfl
@[simp] theorem State.byteStep_res0 (s : State) (j : Job) : (s.byteStep j).res0 = s.res0 := rfl
@[simp] theorem State.byteStep_res1 (s : State) (j : Job) : (s.byteStep j).res1 = s.res1 := rfl
@[simp] theorem State.byteStep_a0 (s : State) (j : Job) : (s.byteStep j).a0 = s.a0 := rfl
@[simp] theorem State.byteStep_a1 (s : State) (j : Job) : (s.byteStep j).a1 = s.a1 := rfl
@[simp] theorem State.byteStep_a2 (s : State) (j : Job) : (s.byteStep j).a2 = s.a2 := rfl
@[simp] theorem State.byteStep_a3 (s : State) (j : Job) : (s.byteStep j).a3 = s.a3 := rfl
@[simp] theorem State.byteStep_phase (s : State) (j : Job) : (s.byteStep j).phase = .running { j with i := j.i + 1 } := rfl
@[simp] theorem State.byteStep_cfg (s : State) (j : Job) : (s.byteStep j).cfg = s.cfg := rfl
@[simp] theorem State.byteStep_agenda (s : State) (j : Job) : (s.byteStep j).agenda = s.agenda := rfl
@[simp] theorem State.byteStep_rdata (s : State) (j : Job) : (s.byteStep j).rdata = s.rdata := rfl
@[simp] theorem State.byteStep_draws (s : State) (j : Job) : (s.byteStep j).draws = s.draws := rfl
@[simp] theorem State.byteStep_past (s : State) (j : Job) : (s.byteStep j).past = s.past := rfl

end Sys2Proof.Machine
end

