-- ==== Sys2Proof/Laws/Memory.lean ====
section
/-! SUPPORT. The laws of buffer memory: a read after a write, the canonical form, and that every operation keeps it and
writes no address but its own. -/

namespace Sys2Proof.Machine

/-! ### The canonical form -/

theorem Memory.wf_nil : Memory.wf [] := by simp [Memory.wf]

theorem Memory.wf_tail {c : Host.Cell} {m : Memory} (h : Memory.wf (c :: m)) : Memory.wf m := by
  obtain ⟨hp, hn⟩ := h
  exact ⟨(List.pairwise_cons.mp hp).2, fun d hd => hn d (List.mem_cons_of_mem _ hd)⟩

/-- In a canonical memory the head's address is below every other. -/
theorem Memory.wf_head_lt {c : Host.Cell} {m : Memory} (h : Memory.wf (c :: m)) : ∀ d ∈ m, c.1 < d.1 :=
  (List.pairwise_cons.mp h.1).1

/-- An address below every listed one reads as an unlisted byte. -/
theorem Memory.read_of_lt {m : Memory} {a : Nat} (h : ∀ d ∈ m, a < d.1) : m.read a = Config.unlistedByte := by
  induction m with
  | nil => rfl
  | cons c m ih =>
    have hc : a < c.1 := h c (List.mem_cons_self ..)
    simp only [Memory.read]
    rw [if_neg (by omega)]
    exact ih fun d hd => h d (List.mem_cons_of_mem _ hd)

/-- A write lists no address but its own and those listed before. -/
theorem Memory.mem_write {m : Memory} {a : Nat} {b : Byte} {c : Host.Cell} (h : c ∈ m.write a b) :
    (c = (a, b) ∧ b ≠ Config.unlistedByte) ∨ c ∈ m := by
  induction m with
  | nil =>
    simp only [Memory.write] at h
    split at h
    · cases h
    · exact .inl ⟨List.mem_singleton.mp h, ‹_›⟩
  | cons d m ih =>
    obtain ⟨k, e⟩ := d
    simp only [Memory.write] at h
    split at h
    · split at h
      · exact .inr h
      · rcases List.mem_cons.mp h with rfl | h
        · exact .inl ⟨rfl, ‹_›⟩
        · exact .inr h
    · split at h
      · subst_vars
        split at h
        · exact .inr (List.mem_cons_of_mem _ h)
        · rcases List.mem_cons.mp h with rfl | h
          · exact .inl ⟨rfl, ‹_›⟩
          · exact .inr (List.mem_cons_of_mem _ h)
      · rcases List.mem_cons.mp h with rfl | h
        · exact .inr (List.mem_cons_self ..)
        · rcases ih h with h | h
          · exact .inl h
          · exact .inr (List.mem_cons_of_mem _ h)

/-- A write keeps the canonical form. -/
theorem Memory.write_wf {m : Memory} (h : m.wf) (a : Nat) (b : Byte) : (m.write a b).wf := by
  induction m with
  | nil =>
    simp only [Memory.write]
    split
    · exact Memory.wf_nil
    · exact ⟨List.pairwise_singleton .., fun c hc => by rw [List.mem_singleton.mp hc]; assumption⟩
  | cons d m ih =>
    obtain ⟨k, e⟩ := d
    have hlt := Memory.wf_head_lt h
    simp only [Memory.write]
    split
    · split
      · exact h
      · refine ⟨List.pairwise_cons.mpr ⟨fun c hc => ?_, h.1⟩, fun c hc => ?_⟩
        · rcases List.mem_cons.mp hc with rfl | hc
          · assumption
          · exact Nat.lt_trans ‹_› (hlt c hc)
        · rcases List.mem_cons.mp hc with rfl | hc
          · assumption
          · exact h.2 c hc
    · split
      · split
        · exact Memory.wf_tail h
        · refine ⟨List.pairwise_cons.mpr ⟨hlt, (Memory.wf_tail h).1⟩, fun c hc => ?_⟩
          rcases List.mem_cons.mp hc with rfl | hc
          · assumption
          · exact h.2 c (List.mem_cons_of_mem _ hc)
      · have ih := ih (Memory.wf_tail h)
        refine ⟨List.pairwise_cons.mpr ⟨fun c hc => ?_, ih.1⟩, fun c hc => ?_⟩
        · rcases Memory.mem_write hc with ⟨rfl, _⟩ | hc
          · show k < a
            omega
          · exact hlt c hc
        · rcases List.mem_cons.mp hc with rfl | hc
          · exact h.2 _ (List.mem_cons_self ..)
          · exact ih.2 c hc

/-- Reading after a write of one byte: the byte written at its address, every other as before. -/
theorem Memory.read_write {m : Memory} (h : m.wf) (a : Nat) (b : Byte) (x : Nat) :
    (m.write a b).read x = if x = a then b else m.read x := by
  induction m with
  | nil =>
    simp only [Memory.write]
    split <;> simp_all [Memory.read]
  | cons d m ih =>
    obtain ⟨k, e⟩ := d
    have hlt := Memory.wf_head_lt h
    have ih := ih (Memory.wf_tail h)
    simp only [Memory.write]
    split
    · split
      · split
        · subst_vars
          exact Memory.read_of_lt fun c hc => by
            rcases List.mem_cons.mp hc with rfl | hc
            · assumption
            · exact Nat.lt_trans ‹_› (hlt c hc)
        · rfl
      · simp only [Memory.read]
    · split
      · subst_vars
        split
        · split
          · subst_vars
            exact Memory.read_of_lt hlt
          · simp only [Memory.read]
            rw [if_neg ‹_›]
        · simp only [Memory.read]
          split <;> rfl
      · simp only [Memory.read, ih]
        split
        · rw [if_neg (by omega)]
        · rfl

@[simp] theorem Memory.read_write_same {m : Memory} (h : m.wf) (a : Nat) (b : Byte) : (m.write a b).read a = b := by
  simp [Memory.read_write h]

theorem Memory.read_write_other {m : Memory} (h : m.wf) {a x : Nat} (b : Byte) (hx : x ≠ a) :
    (m.write a b).read x = m.read x := by
  simp [Memory.read_write h, hx]

/-- A write below a bound keeps every listed address below it. -/
theorem Memory.write_bound {m : Memory} {n a : Nat} (b : Byte) (h : ∀ c ∈ m, c.1 < n) (ha : a < n) :
    ∀ c ∈ m.write a b, c.1 < n := by
  intro c hc
  rcases Memory.mem_write hc with ⟨rfl, _⟩ | hc
  · exact ha
  · exact h c hc

/-! ### Several bytes -/

/-- `MemWrite` keeps the canonical form. -/
theorem Memory.writeBytes_wf {m : Memory} (h : m.wf) (a : Nat) (bs : List Byte) : (m.writeBytes a bs).wf := by
  induction bs generalizing m a with
  | nil => exact h
  | cons b bs ih => exact ih (Memory.write_wf h a b) (a + 1)

/-- `MemWrite` below a bound keeps every listed address below it. -/
theorem Memory.writeBytes_bound {m : Memory} {n a : Nat} {bs : List Byte} (h : ∀ c ∈ m, c.1 < n)
    (ha : a + bs.length ≤ n) : ∀ c ∈ m.writeBytes a bs, c.1 < n := by
  induction bs generalizing m a with
  | nil => exact h
  | cons b bs ih =>
    simp only [List.length_cons] at ha
    exact ih (Memory.write_bound b h (by omega)) (by omega)

/-- A worker's block write keeps the canonical form. -/
theorem Memory.xorBlock_wf {m : Memory} (h : m.wf) (src dst : Nat) (zero : Bool) (ks : BlockBytes) :
    (m.xorBlock src dst zero ks).wf := by
  unfold Memory.xorBlock
  generalize List.finRange 64 = l
  induction l generalizing m with
  | nil => exact h
  | cons t l ih => exact ih (Memory.write_wf h _ _)

/-- A worker's block write below a bound keeps every listed address below it. -/
theorem Memory.xorBlock_bound {m : Memory} {n src dst : Nat} {zero : Bool} {ks : BlockBytes} (h : ∀ c ∈ m, c.1 < n)
    (hd : dst + 64 ≤ n) : ∀ c ∈ m.xorBlock src dst zero ks, c.1 < n := by
  unfold Memory.xorBlock
  generalize List.finRange 64 = l
  induction l generalizing m with
  | nil => exact h
  | cons t l ih =>
    have ht := t.isLt
    exact ih (Memory.write_bound _ h (by omega))

end Sys2Proof.Machine
end

