-- ==== Sys2Proof/Laws/Engine.lean ====
section
/-! SUPPORT. What the sequential engine's steps can do: which registers each leaves alone, what it does to memory, and that
SeqRun goes on from where it stops. -/

namespace Sys2Proof.Machine

/-! ### The XOR step -/

/-- The XOR step with a buffered byte (R172). -/
theorem Engine.xorByte_of_lt {e : Engine} (h : e.next.val < 64) (src dst : Nat) (zero : Bool) (i : Nat) :
    e.xorByte src dst zero i =
      { e with
        mem := e.mem.write (dst + i) (e.mem.sourceByte zero (src + i) ^^^ e.outbuf[e.next.val])
        next := ⟨e.next.val + 1, by omega⟩ } := by
  simp [Engine.xorByte, h]

/-- The XOR step changes NEXT and memory only. -/
theorem Engine.xorByte_eq (e : Engine) (src dst : Nat) (zero : Bool) (i : Nat) :
    e.xorByte src dst zero i =
      { e with mem := (e.xorByte src dst zero i).mem, next := (e.xorByte src dst zero i).next } := by
  unfold Engine.xorByte
  split <;> rfl

@[simp] theorem Engine.xorByte_const (e : Engine) (src dst : Nat) (z : Bool) (i : Nat) :
    (e.xorByte src dst z i).const = e.const := by rw [Engine.xorByte_eq]
@[simp] theorem Engine.xorByte_key (e : Engine) (src dst : Nat) (z : Bool) (i : Nat) :
    (e.xorByte src dst z i).key = e.key := by rw [Engine.xorByte_eq]
@[simp] theorem Engine.xorByte_ctr (e : Engine) (src dst : Nat) (z : Bool) (i : Nat) :
    (e.xorByte src dst z i).ctr = e.ctr := by rw [Engine.xorByte_eq]
@[simp] theorem Engine.xorByte_nonce (e : Engine) (src dst : Nat) (z : Bool) (i : Nat) :
    (e.xorByte src dst z i).nonce = e.nonce := by rw [Engine.xorByte_eq]
@[simp] theorem Engine.xorByte_rounds (e : Engine) (src dst : Nat) (z : Bool) (i : Nat) :
    (e.xorByte src dst z i).rounds = e.rounds := by rw [Engine.xorByte_eq]
@[simp] theorem Engine.xorByte_outbuf (e : Engine) (src dst : Nat) (z : Bool) (i : Nat) :
    (e.xorByte src dst z i).outbuf = e.outbuf := by rw [Engine.xorByte_eq]
@[simp] theorem Engine.xorByte_exh (e : Engine) (src dst : Nat) (z : Bool) (i : Nat) :
    (e.xorByte src dst z i).exh = e.exh := by rw [Engine.xorByte_eq]
@[simp] theorem Engine.xorByte_term (e : Engine) (src dst : Nat) (z : Bool) (i : Nat) :
    (e.xorByte src dst z i).term = e.term := by rw [Engine.xorByte_eq]
@[simp] theorem Engine.xorByte_gen (e : Engine) (src dst : Nat) (z : Bool) (i : Nat) :
    (e.xorByte src dst z i).gen = e.gen := by rw [Engine.xorByte_eq]

/-- The XOR step keeps the canonical form. -/
theorem Engine.xorByte_wf {e : Engine} (h : e.mem.wf) (src dst : Nat) (zero : Bool) (i : Nat) :
    (e.xorByte src dst zero i).mem.wf := by
  unfold Engine.xorByte
  split
  · exact Memory.write_wf h _ _
  · exact h

/-- The XOR step writes no address but `dst + i`. -/
theorem Engine.xorByte_read_other {e : Engine} (h : e.mem.wf) {src dst i a : Nat} (zero : Bool) (ha : a ≠ dst + i) :
    (e.xorByte src dst zero i).mem.read a = e.mem.read a := by
  unfold Engine.xorByte
  split
  · exact Memory.read_write_other h _ ha
  · rfl

/-! ### SeqRun -/

@[simp] theorem seqRun_zero (src dst : Nat) (zero : Bool) (i : Nat) (e : Engine) :
    seqRun src dst zero 0 i e = ⟨e, i, .ok⟩ := rfl

/-- SeqRun stops at once where the stream is exhausted (R173). -/
theorem seqRun_exhausted {e : Engine} (hn : e.next = 64) (he : e.exh = true) (src dst : Nat) (zero : Bool) (n i : Nat) :
    seqRun src dst zero (n + 1) i e = ⟨e.exhaust, i, .keystreamExhausted⟩ := by
  simp [seqRun, hn, he]

/-- SeqRun generates a block where the buffered one is used up (R170). -/
theorem seqRun_generates {e : Engine} (hn : e.next = 64) (he : e.exh = false) (src dst : Nat) (zero : Bool) (n i : Nat) :
    seqRun src dst zero (n + 1) i e = seqRun src dst zero n (i + 1) (e.generateBlock.xorByte src dst zero i) := by
  simp [seqRun, hn, he]

/-- SeqRun uses a buffered byte where there is one (R170). -/
theorem seqRun_buffered {e : Engine} (hn : e.next ≠ 64) (src dst : Nat) (zero : Bool) (n i : Nat) :
    seqRun src dst zero (n + 1) i e = seqRun src dst zero n (i + 1) (e.xorByte src dst zero i) := by
  simp [seqRun, hn]

/-- What every step of SeqRun keeps holds of the engine it leaves. -/
theorem seqRun_induction {P : Engine → Prop} {src dst : Nat} {zero : Bool}
    (hgen : ∀ e, P e → e.next = 64 → e.exh = false → P e.generateBlock)
    (hxor : ∀ e i, P e → e.next ≠ 64 → P (e.xorByte src dst zero i))
    (hexh : ∀ e, P e → e.next = 64 → e.exh = true → P e.exhaust) :
    ∀ (n i : Nat) (e : Engine), P e → P (seqRun src dst zero n i e).engine := by
  intro n
  induction n with
  | zero => intro i e h; exact h
  | succ n ih =>
    intro i e h
    by_cases hn : e.next = 64
    · cases he : e.exh with
      | true => rw [seqRun_exhausted hn he]; exact hexh e h hn he
      | false =>
        rw [seqRun_generates hn he]
        exact ih _ _ (hxor _ _ (hgen e h hn he) (by simp))
    · rw [seqRun_buffered hn]
      exact ih _ _ (hxor e i h hn)

/-- SeqRun changes no key, constant, nonce or round count. -/
theorem seqRun_context (src dst : Nat) (zero : Bool) (n i : Nat) (e : Engine) :
    let f := (seqRun src dst zero n i e).engine
    f.const = e.const ∧ f.key = e.key ∧ f.nonce = e.nonce ∧ f.rounds = e.rounds :=
  seqRun_induction (P := fun f => f.const = e.const ∧ f.key = e.key ∧ f.nonce = e.nonce ∧ f.rounds = e.rounds)
    (fun f h _ _ => by simpa using h) (fun f j h _ => by simpa using h) (fun f h _ _ => by simpa using h) n i e
    ⟨rfl, rfl, rfl, rfl⟩

/-- SeqRun keeps the canonical form. -/
theorem seqRun_wf {e : Engine} (h : e.mem.wf) (src dst : Nat) (zero : Bool) (n i : Nat) :
    (seqRun src dst zero n i e).engine.mem.wf :=
  seqRun_induction (P := fun f => f.mem.wf) (fun _ hf _ _ => hf) (fun _ _ hf _ => Engine.xorByte_wf hf ..)
    (fun _ hf _ _ => hf) n i e h

/-- How SeqRun ends: with OK after all its bytes, or with KeystreamExhausted before (R170, R180). -/
theorem seqRun_ends (src dst : Nat) (zero : Bool) (n i : Nat) (e : Engine) :
    let r := seqRun src dst zero n i e
    (r.cause = .ok ∧ r.count = i + n) ∨
      (r.cause = .keystreamExhausted ∧ i ≤ r.count ∧ r.count < i + n ∧ r.engine.term = true ∧ r.engine.exh = true) := by
  induction n generalizing i e with
  | zero => exact .inl ⟨rfl, rfl⟩
  | succ n ih =>
    by_cases hn : e.next = 64
    · cases he : e.exh with
      | true =>
        rw [seqRun_exhausted hn he]
        exact .inr ⟨rfl, Nat.le_refl _, by simp, rfl, he⟩
      | false =>
        rw [seqRun_generates hn he]
        rcases ih (i + 1) (e.generateBlock.xorByte src dst zero i) with ⟨h1, h2⟩ | ⟨h1, h2, h3, h4⟩
        · exact .inl ⟨h1, by omega⟩
        · exact .inr ⟨h1, by omega, by omega, h4⟩
    · rw [seqRun_buffered hn]
      rcases ih (i + 1) (e.xorByte src dst zero i) with ⟨h1, h2⟩ | ⟨h1, h2, h3, h4⟩
      · exact .inl ⟨h1, by omega⟩
      · exact .inr ⟨h1, by omega, by omega, h4⟩

/-- SeqRun writes no byte outside the offsets `i` to its count. -/
theorem seqRun_read_outside {e : Engine} (h : e.mem.wf) {src dst n i a : Nat} (zero : Bool)
    (ha : a < dst + i ∨ dst + (seqRun src dst zero n i e).count ≤ a) :
    (seqRun src dst zero n i e).engine.mem.read a = e.mem.read a := by
  induction n generalizing i e with
  | zero => rfl
  | succ n ih =>
    by_cases hn : e.next = 64
    · cases he : e.exh with
      | true => rw [seqRun_exhausted hn he]; rfl
      | false =>
        rw [seqRun_generates hn he] at ha ⊢
        have hg : e.generateBlock.mem.wf := h
        have hc : i + 1 ≤ (seqRun src dst zero n (i + 1) (e.generateBlock.xorByte src dst zero i)).count := by
          rcases seqRun_ends src dst zero n (i + 1) (e.generateBlock.xorByte src dst zero i) with hc | hc <;> omega
        rw [ih (Engine.xorByte_wf hg ..) (by omega), Engine.xorByte_read_other hg zero (by omega)]
        rfl
    · rw [seqRun_buffered hn] at ha ⊢
      have hc : i + 1 ≤ (seqRun src dst zero n (i + 1) (e.xorByte src dst zero i)).count := by
        rcases seqRun_ends src dst zero n (i + 1) (e.xorByte src dst zero i) with hc | hc <;> omega
      rw [ih (Engine.xorByte_wf h ..) (by omega), Engine.xorByte_read_other h zero (by omega)]

end Sys2Proof.Machine
end

