-- ==== Sys2Proof/Laws/Exec.lean ====
section
/-! SUPPORT. What the shared operations of the meanings can do: the gate under FATAL, the checks, and `finish`. -/

namespace Sys2Proof.Machine

/-- `reject` with a cause of the fatal class leaves the rejected state (R229). -/
theorem State.reject_eq (s : State) (c : Cause) (h : c.isFatal = true) : s.reject c = s.rejectedWith c := by
  simp [State.reject, State.finish, State.rejectedWith, h]

/-! The same for each cause, as simp lemmas. -/

@[simp] theorem State.reject_invalidKeyLength (s : State) : s.reject .invalidKeyLength = s.rejectedWith .invalidKeyLength :=
  State.reject_eq s _ rfl
@[simp] theorem State.reject_invalidNonceLength (s : State) : s.reject .invalidNonceLength = s.rejectedWith .invalidNonceLength :=
  State.reject_eq s _ rfl
@[simp] theorem State.reject_invalidRoundCount (s : State) : s.reject .invalidRoundCount = s.rejectedWith .invalidRoundCount :=
  State.reject_eq s _ rfl
@[simp] theorem State.reject_insufficientOutputSpace (s : State) : s.reject .insufficientOutputSpace = s.rejectedWith .insufficientOutputSpace :=
  State.reject_eq s _ rfl
@[simp] theorem State.reject_fatalMisuse (s : State) : s.reject .fatalMisuse = s.rejectedWith .fatalMisuse :=
  State.reject_eq s _ rfl
@[simp] theorem State.reject_illegalCommand (s : State) : s.reject .illegalCommand = s.rejectedWith .illegalCommand :=
  State.reject_eq s _ rfl
@[simp] theorem State.reject_notConfigured (s : State) : s.reject .notConfigured = s.rejectedWith .notConfigured :=
  State.reject_eq s _ rfl
@[simp] theorem State.reject_addressError (s : State) : s.reject .addressError = s.rejectedWith .addressError :=
  State.reject_eq s _ rfl
@[simp] theorem State.reject_overlapError (s : State) : s.reject .overlapError = s.rejectedWith .overlapError :=
  State.reject_eq s _ rfl
@[simp] theorem State.reject_invalidTuning (s : State) : s.reject .invalidTuning = s.rejectedWith .invalidTuning :=
  State.reject_eq s _ rfl

/-- The gate lets a command through while FATAL = 0. -/
@[simp] theorem State.gated_of_clear {s : State} (h : s.fatal = false) (body : Result) : s.gated body = body := by
  simp [State.gated, h]

/-- The gate rejects a command without effect while FATAL = 1 (R231). -/
@[simp] theorem State.gated_of_fatal {s : State} (h : s.fatal = true) (body : Result) :
    s.gated body = .next s.dropCommand := by
  simp [State.gated, h]

@[simp] theorem State.checked_none (s t : State) : s.checked none t = .next t := rfl

@[simp] theorem State.checked_some (s t : State) (c : Cause) : s.checked (some c) t = .next (s.reject c) := rfl

/-- What a checked command answers: a rejection with the cause of its check, or its effect. -/
theorem State.checked_cases {s t u : State} {check : Option Cause} (h : s.checked check t = .next u) :
    (∃ c, check = some c ∧ u = s.reject c) ∨ (check = none ∧ u = t) := by
  cases check with
  | none => exact .inr ⟨rfl, by simpa using h.symm⟩
  | some c => exact .inl ⟨c, rfl, by simpa using h.symm⟩

/-- What a gated command answers: nothing but the end of BUSY under FATAL, else what its body answers. -/
theorem State.gated_cases {s u : State} {body : Result} (h : s.gated body = .next u) :
    (s.fatal = true ∧ u = s.dropCommand) ∨ (s.fatal = false ∧ body = .next u) := by
  cases hf : s.fatal with
  | true => exact .inl ⟨rfl, by simpa [State.gated, hf] using h.symm⟩
  | false => exact .inr ⟨rfl, by simpa [State.gated, hf] using h⟩

/-- A gated command whose body answers a next state answers one. -/
theorem State.gated_next {s : State} {body : Result} (h : ∃ t, body = .next t) : ∃ t, s.gated body = .next t := by
  cases hf : s.fatal with
  | true => exact ⟨_, s.gated_of_fatal hf body⟩
  | false => rw [s.gated_of_clear hf]; exact h

/-- A checked command answers a next state. -/
theorem State.checked_next (s t : State) (check : Option Cause) : ∃ u, s.checked check t = .next u := by
  cases check <;> exact ⟨_, rfl⟩

/-- No command stops the machine: `exec` always answers a next state. -/
theorem exec_answers_next (i : Instr) (s : State) : ∃ t, exec i s = .next t := by
  cases i with
  | init => exact s.checked_next _ _
  | keysetup => exact State.gated_next (s.checked_next _ _)
  | ivsetup => exact State.gated_next (s.checked_next _ _)
  | setrounds r => exact State.gated_next (s.checked_next _ _)
  | seek => exact State.gated_next ⟨_, rfl⟩
  | getctr => exact State.gated_next ⟨_, rfl⟩
  | tune f => exact State.gated_next (s.checked_next _ _)
  | xor => exact State.gated_next (s.checked_next _ _)
  | ks => exact State.gated_next (s.checked_next _ _)

/-- Every command ends with BUSY = 0 (R41 step 5). -/
theorem exec_ends_idle {i : Instr} {s t : State} (h : exec i s = .next t) : t.phase = .idle := by
  have checked {s t u : State} {c : Option Cause} (ht : t.phase = .idle) (h : s.checked c t = .next u) :
      u.phase = .idle := by
    rcases State.checked_cases h with ⟨c, _, rfl⟩ | ⟨_, rfl⟩
    · rfl
    · exact ht
  cases i with
  | init => exact checked rfl h
  | keysetup => rcases State.gated_cases h with ⟨_, rfl⟩ | ⟨_, h⟩; exacts [rfl, checked rfl h]
  | ivsetup => rcases State.gated_cases h with ⟨_, rfl⟩ | ⟨_, h⟩; exacts [rfl, checked rfl h]
  | setrounds r => rcases State.gated_cases h with ⟨_, rfl⟩ | ⟨_, h⟩; exacts [rfl, checked rfl h]
  | seek => rcases State.gated_cases h with ⟨_, rfl⟩ | ⟨_, h⟩; exacts [rfl, by cases h; rfl]
  | getctr => rcases State.gated_cases h with ⟨_, rfl⟩ | ⟨_, h⟩; exacts [rfl, by cases h; rfl]
  | tune f => rcases State.gated_cases h with ⟨_, rfl⟩ | ⟨_, h⟩; exacts [rfl, checked rfl h]
  | xor => rcases State.gated_cases h with ⟨_, rfl⟩ | ⟨_, h⟩; exacts [rfl, checked rfl h]
  | ks => rcases State.gated_cases h with ⟨_, rfl⟩ | ⟨_, h⟩; exacts [rfl, checked rfl h]

end Sys2Proof.Machine
end

