-- ==== Sys2Proof/Laws/Step.lean ====
section
/-! SUPPORT. What one step can be: a turn of the agenda, or the core's move when none is listed. -/

namespace Sys2Proof.Machine

theorem step_of_empty {s : State} (h : s.agenda = []) : step s = s.coreMove := by simp [step, h]

theorem step_of_turn {s : State} {t : Turn} {rest : List Turn} (h : s.agenda = t :: rest) :
    step s = ({ s with agenda := rest } : State).turn t := by simp [step, h]

theorem State.nextTurn_of_turn {s : State} {t : Turn} {rest : List Turn} (h : s.agenda = t :: rest) :
    s.nextTurn = { s with agenda := rest } := by simp [State.nextTurn, h]

theorem State.nextTurn_of_empty {s : State} (h : s.agenda = []) : s.nextTurn = s := by
  cases s
  simp_all [State.nextTurn]

/-- A step of the machine is the core's move, a fine move, a host access, a bus access, or the platform's, in the state whose
agenda has lost the turn taken. -/
theorem step_cases (s : State) :
    ((s.agenda = [] ∨ s.agenda.head? = some .core) ∧ step s = s.nextTurn.coreMove) ∨
    (∃ pick, s.agenda.head? = some (.fine pick) ∧ step s = s.nextTurn.fineMove pick) ∨
    (∃ a, s.agenda.head? = some (.host a) ∧ step s = s.nextTurn.hostAccess a) ∨
    (∃ b, s.agenda.head? = some (.bus b) ∧ step s = s.nextTurn.busAccess b) ∨
    (s.agenda.head? = some .sync ∧ step s = .next s.nextTurn.syncPlatform) := by
  cases h : s.agenda with
  | nil => exact .inl ⟨.inl rfl, by rw [step_of_empty h, State.nextTurn_of_empty h]⟩
  | cons t rest =>
    rw [step_of_turn h, State.nextTurn_of_turn h]
    cases t with
    | host a => exact .inr (.inr (.inl ⟨a, rfl, rfl⟩))
    | bus b => exact .inr (.inr (.inr (.inl ⟨b, rfl, rfl⟩)))
    | sync => exact .inr (.inr (.inr (.inr ⟨rfl, rfl⟩)))
    | core => exact .inl ⟨.inr rfl, rfl⟩
    | fine pick => exact .inr (.inl ⟨pick, rfl, rfl⟩)

/-- A bus access is the host access it is routed to, or is refused (R68). -/
theorem State.busAccess_cases (s : State) (b : BusAccess) :
    (∃ a, b.route s.cfg = some a ∧ s.busAccess b = s.hostAccess a) ∨
    (b.route s.cfg = none ∧ s.busAccess b = .refused .busAccessNotRouted) := by
  unfold State.busAccess
  cases b.route s.cfg with
  | none => exact .inr ⟨rfl, rfl⟩
  | some a => exact .inl ⟨a, rfl, rfl⟩

/-- A bus access is never routed to the reset input. -/
theorem BusAccess.route_ne_reset (c : Config) (b : BusAccess) : b.route c ≠ some .reset := by
  cases b <;> unfold BusAccess.route <;> split <;> (try split) <;> simp

/-- What the host may be shown for a byte: the byte itself on a coherent platform, else the byte or a past value (R78). -/
theorem State.hostByte_cases (s : State) (a : Nat) :
    s.hostByte a = s.mem.read a ∨ (s.cfg.platformCoherent = false ∧ ∃ m ∈ s.past, s.hostByte a = m.read a) := by
  unfold State.hostByte
  split
  · exact .inl rfl
  next hc =>
    have hl : Config.staleByteChoice s.draws a % s.remember.length < (s.remember.map (·.read a)).length := by
      rw [List.length_map]
      exact Nat.mod_lt _ (by simp [State.remember])
    rw [List.getD_eq_getElem _ _ hl]
    obtain ⟨m, hm, he⟩ := List.mem_map.mp (List.getElem_mem hl)
    rw [← he]
    rcases List.mem_cons.mp hm with rfl | hm
    · exact .inl rfl
    · exact .inr ⟨by simpa using hc, m, hm, rfl⟩

/-- The core's move answers a next state, and nothing is a fault or a refusal there. -/
theorem State.coreMove_next (s : State) : ∃ t, s.coreMove = .next t := by
  unfold State.coreMove
  split
  · exact ⟨_, rfl⟩
  · unfold State.runWord
    split
    · exact State.gated_next ⟨_, rfl⟩
    · exact exec_answers_next _ _
  · exact ⟨_, rfl⟩

/-- A fine move answers a next state. -/
theorem State.fineMove_next (s : State) (pick : Nat) : ∃ t, s.fineMove pick = .next t := by
  unfold State.fineMove
  split
  · exact ⟨_, rfl⟩
  · split
    · unfold State.runWord
      split
      · exact State.gated_next ⟨_, rfl⟩
      · exact exec_answers_next _ _
    · exact ⟨_, rfl⟩
  · exact ⟨_, rfl⟩

end Sys2Proof.Machine
end

