-- ==== Sys2Proof/Laws/PerInstr.lean ====
section
/-! SUPPORT. Statements made per instruction. `RowOfWord`: the word of a command selects, by match and mask, the row of the
opcode map with the command's mnemonic (30_encoding.md R83). -/

namespace Sys2Proof.Laws.RowOfWord

open Sys2Proof

/-- The command's own word selects exactly the row of its mnemonic. -/
def Statement (i : Instr) : Prop := (opcodeRows.filter (·.selects (encode i))).map (·.mnemonic) = [i.mnemonic]

theorem init : Statement .init := by unfold Statement; decide
theorem keysetup : Statement .keysetup := by unfold Statement; decide
theorem ivsetup : Statement .ivsetup := by unfold Statement; decide
theorem setrounds (r : BitVec 8) : Statement (.setrounds r) := by
  unfold Statement
  revert r
  decide
theorem seek : Statement .seek := by unfold Statement; decide
theorem getctr : Statement .getctr := by unfold Statement; decide
theorem tune (f : Bool) : Statement (.tune f) := by
  unfold Statement
  revert f
  decide
theorem xor : Statement .xor := by unfold Statement; decide
theorem ks : Statement .ks := by unfold Statement; decide

end Sys2Proof.Laws.RowOfWord
end

