-- ==== Sys2Proof/Laws/Region.lean ====
section
/-! SUPPORT. What one atomic step of a running job can be (70_reset_and_hazards.md R288), and which moves of the workers are
enabled (43_parallel.md R197 to R200). -/

namespace Sys2Proof.Machine

/-! ### Which moves are enabled -/

/-- The moves of a region, one by one: an admission of a pending chunk while SEM > 0 (R197), a block step of a running
worker with blocks left, on any lane (R198, R200), or the release of a running worker with none left (R199). -/
theorem Region.mem_moves {r : Region} {lanes : Nat} {m : Move} :
    m ∈ r.moves lanes ↔
      (0 < r.sem ∧ ∃ k ∈ r.pending, m = .admission k) ∨
      (∃ w ∈ r.running, 0 < w.left ∧ ∃ lane, lane < lanes ∧ m = .block w.k lane) ∨
      (∃ w ∈ r.running, w.left = 0 ∧ m = .release w.k) := by
  unfold Region.moves Worker.moves
  rw [List.mem_append, List.mem_flatMap]
  constructor
  · rintro (h | ⟨w, hw, h⟩)
    · split at h
      · obtain ⟨k, hk, rfl⟩ := List.mem_map.mp h
        exact .inl ⟨‹_›, k, hk, rfl⟩
      · cases h
    · split at h
      · exact .inr (.inr ⟨w, hw, ‹_›, List.mem_singleton.mp h⟩)
      · obtain ⟨l, hl, rfl⟩ := List.mem_map.mp h
        exact .inr (.inl ⟨w, hw, by omega, l, List.mem_range.mp hl, rfl⟩)
  · rintro (⟨h, k, hk, rfl⟩ | ⟨w, hw, hl, lane, hlane, rfl⟩ | ⟨w, hw, hl, rfl⟩)
    · exact .inl (by rw [if_pos h]; exact List.mem_map.mpr ⟨k, hk, rfl⟩)
    · exact .inr ⟨w, hw, by rw [if_neg (by omega)]; exact List.mem_map.mpr ⟨lane, List.mem_range.mpr hlane, rfl⟩⟩
    · exact .inr ⟨w, hw, by rw [if_pos hl]; exact List.mem_singleton.mpr rfl⟩

/-- The lane of a block step changes nothing (R111, R198). -/
theorem State.workerMove_lane (s : State) (j : Job) (r : Region) (k lane : Nat) :
    s.workerMove j r (.block k lane) = s.workerMove j r (.block k 0) := rfl

/-- The barrier is reached exactly when every chunk is done (R203). -/
theorem Region.barrier_iff {r : Region} : r.barrier = true ↔ ∀ k, k < r.n → k ∈ r.done := by
  simp [Region.barrier]

/-! ### One atomic step -/

/-- A step of a region is the reposition at the barrier (R204), an enabled move before it, or nothing where no move is
enabled. -/
theorem State.regionStep_cases (s : State) (j : Job) (r : Region) (pick : Nat) :
    (r.barrier = true ∧ s.regionStep j r pick =
      { s with
        toEngine := s.toEngine.reposition r.base (r.n * s.bpc.toNat)
        phase := .running { j with i := j.i + r.n * (64 * s.bpc.toNat), stage := .rest } }) ∨
    (r.barrier = false ∧ ∃ m ∈ r.moves s.cfg.numLanes, s.regionStep j r pick = s.workerMove j r m) ∨
    (r.barrier = false ∧ r.moves s.cfg.numLanes = [] ∧ s.regionStep j r pick = s) := by
  unfold State.regionStep
  cases hb : r.barrier with
  | true => exact .inl ⟨rfl, rfl⟩
  | false =>
    refine .inr ?_
    simp only [Bool.false_eq_true, if_false]
    split
    next h =>
      refine .inr ⟨trivial, ?_, rfl⟩
      rw [List.getElem?_eq_none_iff] at h
      cases hm : r.moves s.cfg.numLanes with
      | nil => rfl
      | cons m ms =>
        have : pick % (r.moves s.cfg.numLanes).length < (r.moves s.cfg.numLanes).length := Nat.mod_lt _ (by simp [hm])
        omega
    next m h => exact .inl ⟨trivial, m, List.mem_of_getElem? h, rfl⟩

/-- A step of SeqRun is the completion, the exhaustion stop, a GenerateBlock, or a byte XOR (R170). -/
theorem State.seqStep_cases (s : State) (j : Job) :
    (j.len ≤ j.i ∧ s.seqStep j = s.finish .ok (BitVec.ofNat 32 j.len) 0) ∨
    (j.i < j.len ∧ s.next = 64 ∧ s.exh = true ∧ s.seqStep j =
      ({ s with toEngine := s.toEngine.exhaust } : State).finish .keystreamExhausted (BitVec.ofNat 32 j.i) 0) ∨
    (j.i < j.len ∧ s.next = 64 ∧ s.exh = false ∧ s.seqStep j = { s with toEngine := s.toEngine.generateBlock }) ∨
    (j.i < j.len ∧ s.next ≠ 64 ∧ s.seqStep j = s.byteStep j) := by
  unfold State.seqStep
  by_cases hl : j.len ≤ j.i
  · exact .inl ⟨hl, if_pos hl⟩
  · have hl' : j.i < j.len := by omega
    rw [if_neg hl]
    by_cases hn : s.next = 64
    · rw [if_pos hn]
      cases he : s.exh with
      | true => exact .inr (.inl ⟨hl', hn, rfl, rfl⟩)
      | false => exact .inr (.inr (.inl ⟨hl', hn, rfl, rfl⟩))
    · exact .inr (.inr (.inr ⟨hl', hn, if_neg hn⟩))

end Sys2Proof.Machine
end

