-- ==== Sys2Proof/Tests/Slice0.lean ====
section
/-! SUPPORT. The model's own tests, each expected value taken from 95_test_vectors.md or from a rule's worked example, and one
witness per statement: a concrete state and operands that meet its hypotheses. -/

namespace Sys2Proof.Tests

open Sys2Proof Sys2Proof.Machine

/-! ### Helpers -/

/-- Whether an outcome is a next state with a property. -/
def answers (r : Result) (p : State → Bool) : Bool :=
  match r with
  | .next t => p t
  | .fault _ => false
  | .refused _ => false

theorem of_answers {r : Result} {p : State → Bool} (h : answers r p = true) : ∃ t, r = .next t ∧ p t = true := by
  cases r with
  | next t => exact ⟨t, rfl, h⟩
  | fault f => cases h
  | refused q => cases h

/-- The fault an outcome is, if it is one. -/
def faultOf : Result → Option Fault
  | .next _ => none
  | .fault f => some f
  | .refused _ => none

/-- The refusal an outcome is, if it is one. -/
def refusalOf : Result → Option Refusal
  | .next _ => none
  | .fault _ => none
  | .refused r => some r

/-- The zero context of 95_test_vectors.md: reset, then INIT with a zero key and nonce. -/
def zeroContext : State := { State.reset with const := sigma, keyset := true, ivset := true, key256 := true }

/-- The zero context with argument registers. -/
def withArgs (a0 a1 a2 a3 : Word) : State := { zeroContext with a0 := a0, a1 := a1, a2 := a2, a3 := a3 }

/-- A state with bytes in memory from an address. -/
def withBytes (s : State) (a : Nat) (bs : List Byte) : State := { s with mem := s.mem.writeBytes a bs }

/-- The bytes 0, 1, .., n − 1. -/
def counting (n : Nat) : List Byte := (List.range n).map (BitVec.ofNat 8)

/-! ### Well-formedness: an ill-formed value for each check (R95) -/

theorem smoke_argument_too_large : fitsArgument (2 ^ 32) = false ∧ fitsArgument (2 ^ 32 - 1) = true := by decide
theorem smoke_block_index_too_large : fitsBlockIndex (2 ^ 64) = false ∧ fitsBlockIndex (2 ^ 64 - 1) = true := by decide
theorem smoke_rounds_too_large : fitsRounds 256 = false ∧ fitsRounds 255 = true := by decide
theorem smoke_parallel_flag_too_large : fitsParallelFlag 2 = false ∧ fitsParallelFlag 1 = true := by decide
theorem smoke_assembly_errors :
    (Asm.command (.setrounds 256)).assemble = none ∧ (Asm.command (.seek (2 ^ 64))).assemble = none ∧
    (Asm.command (.tune 2 1 1)).assemble = none ∧ (Asm.pseudo (.read (2 ^ 32) 1)).assemble = none := by decide
theorem smoke_turns_of_an_assembly_error :
    (Asm.command (.setrounds 256)).turns = none ∧ (Asm.command (.xor 0 0 (2 ^ 32) 0)).turns = none ∧
    (Asm.command (.tune 2 1 1)).turns = none := by decide
/-- The examples of R95 and 41_context.md, as text. -/
theorem test_read_line :
    readLine ['S', 'E', 'E', 'K', ' ', '0', 'x', '1', 'F', ' ', ';', 'n'] = .line (.command (.seek 31)) ∧
    readLine ['T', 'U', 'N', 'E', ' ', '1', ',', ' ', '1', ',', '2', '0'] = .line (.command (.tune 1 1 20)) := by decide
theorem test_read_line_errors :
    readLine ['G', 'E', 'T', 'C', 'T', 'R', ' ', '1'] = .error ∧ readLine ['K', 'S', ' ', '1', ',', ','] = .error ∧
    readLine ['S', 'E', 'E', 'K', ' ', '0', 'x'] = .error ∧ readLine [' ', ';', 'x'] = .blank ∧
    readLine ['G', 'E', 'T', 'C', 'T', 'R'] = .line (.command .getctr) := by decide
theorem smoke_every_instr_is_well_formed : (Instr.setrounds 255).wellFormed = true := by decide

/-! ### Decoding (V-ENC-1): every constructor's word, bits written out by R81's fields RSV1, IMM8, RSV0, F, OPC -/

theorem test_decode_init : decode 0b00000000_00000000_0000000_0_00000001 = .ok .init := by decide
theorem test_decode_keysetup : decode 0b00000000_00000000_0000000_0_00000010 = .ok .keysetup := by decide
theorem test_decode_ivsetup : decode 0b00000000_00000000_0000000_0_00000011 = .ok .ivsetup := by decide
theorem test_decode_setrounds : decode 0b00000000_00010100_0000000_0_00000100 = .ok (.setrounds 20) := by decide
theorem test_decode_seek : decode 0b00000000_00000000_0000000_0_00000101 = .ok .seek := by decide
theorem test_decode_getctr : decode 0b00000000_00000000_0000000_0_00000110 = .ok .getctr := by decide
theorem test_decode_tune : decode 0b00000000_00000000_0000000_1_00000111 = .ok (.tune true) := by decide
theorem test_decode_xor : decode 0b00000000_00000000_0000000_0_00001000 = .ok .xor := by decide
theorem test_decode_ks : decode 0b00000000_00000000_0000000_0_00001001 = .ok .ks := by decide
theorem test_decode_rejects_by_name :
    decode 0x00000000 = .error .opcode ∧ decode 0x0000000A = .error .opcode ∧ decode 0x000000FF = .error .opcode ∧
    decode 0x00000108 = .error .flagOperand ∧ decode 0x00080001 = .error .immediateOperand ∧
    decode 0x00000207 = .error .reservedBits ∧ decode 0x80000009 = .error .reservedBits ∧
    decode 0x01140004 = .error .reservedBits := by decide
theorem test_table_word : decodeTableWord 32 0x000C0004 = some (.setrounds 12) ∧ decodeTableWord 32 10 = none := by decide
theorem test_encode_words :
    encode (.setrounds 12) = 0x000C0004 ∧ encode (.tune true) = 0x00000107 ∧ encode .ks = 0x00000009 := by decide

/-! ### Permutation engine -/

/-- V-PERM-1. -/
theorem test_quarter_round : quarterRound 0x11111111 0x01020304 0x9b8d6f43 0x01234567
    = (0xea2a92f4, 0xcb1cf8ce, 0x4581472e, 0x5881c4bb) := by decide
/-- V-PERM-2. -/
theorem test_quarter_round_wraps : quarterRound 0xffffffff 0xffffffff 0xffffffff 0xffffffff
    = (0xf0000ffd, 0x88790878, 0x0110fdef, 0x010ffdf0) := by decide
/-- V-PERM-10: two words after the first column round, and after 10 double-rounds. -/
theorem test_column_round :
    (columnRound (stateWords sigma (.replicate 8 0) (.replicate 2 0) 0))[4] = 0x4a7d5c86#32 ∧
    (columnRound (stateWords sigma (.replicate 8 0) (.replicate 2 0) 0))[15] = 0xa600ebd4#32 := by decide +kernel
theorem test_ten_double_rounds :
    ((Lane.load (stateWords sigma (.replicate 8 0) (.replicate 2 0) 0)).run 10).x[4] = 0xb819d2bd#32 := by decide +kernel
/-- V-PERM-8, tau: the last four bytes at r = 8. -/
theorem test_block_tau :
    let b := blockTransform (stateWords tau (.replicate 8 0) (.replicate 2 0) 0) 8
    (b[60], b[61], b[62], b[63]) = (0xc8#8, 0x16#8, 0x08#8, 0x1b#8) := by decide +kernel
/-- V-PERM-7: the state of RFC 7539 §2.3.2 places counter and nonce; first and last bytes at r = 20. -/
theorem test_block_layout :
    let k := Vector.ofFn fun i : Fin 8 => keyWord (counting 32) true i
    let b := blockTransform (stateWords sigma k #v[0x4a000000, 0] 0x0900000000000001) 20
    (b[0], b[1], b[62], b[63]) = (0x10#8, 0xf1#8, 0x3c#8, 0x4e#8) := by decide +kernel

/-! ### Reset and registers (V-RST) -/

theorem test_reset_registers :
    State.reset.statusWord = 0 ∧ State.reset.cfgWord = 0x1401 ∧ State.reset.readRegister 0x24 = 0x200 ∧
    State.reset.readRegister 0x28 = 0x80 := by decide
/-- V-RST-3: a write while BUSY = 1 is dropped and sets OVR (STATUS 0x51 while running, 0x50 after). -/
theorem test_write_while_busy :
    answers (step { zeroContext with phase := .accepted 6, agenda := [.host (.writeReg 4 32 7)] })
      (fun t => t.a0 = 0 && t.statusWord = 0x51) = true := by decide
theorem test_host_access_shape :
    refusalOf (step { zeroContext with agenda := [.host (.readReg 0x15 32)] }) = some .hostRegisterAccessShape ∧
    refusalOf (step { zeroContext with agenda := [.host (.writeReg 0x14 8 0)] }) = some .hostRegisterAccessShape := by decide
theorem test_host_read_outside_memory :
    faultOf (step { zeroContext with agenda := [.host (.readMem 0x10000)] }) = some .hostAddressOutsideMemory := by decide

/-! ### Context commands (V-CTX, V-ERR) -/

/-- P1 step 1. -/
theorem test_init : answers (exec .init { State.reset with a0 := 0, a1 := 0x20, a2 := 32, a3 := 8 })
    (fun t => t.statusWord = 0x10 && t.cfgWord = 0x140F && t.const = sigma) = true := by decide
/-- V-CTX-15. -/
theorem test_init_key_length_first : answers (exec .init { State.reset with a2 := 24, a3 := 12 })
    (fun t => t.statusWord = 0x102) = true := by decide
/-- V-CTX-2: a 16-byte key fills both halves. -/
theorem test_keysetup_short : answers (exec .keysetup (withBytes (withArgs 0x40 0 16 0) 0x40 (counting 16)))
    (fun t => t.key = #v[0x03020100, 0x07060504, 0x0b0a0908, 0x0f0e0d0c, 0x03020100, 0x07060504, 0x0b0a0908, 0x0f0e0d0c]
      && t.const = tau && t.cfgWord = 0x140D) = true := by decide +kernel
/-- V-CTX-5: the length is checked before the address. -/
theorem test_keysetup_length_first : answers (exec .keysetup (withArgs 0xFFFFFFF0 0 24 0))
    (fun t => t.cause = .invalidKeyLength && t.fatal) = true := by decide
/-- V-CTX-8. -/
theorem test_ivsetup : answers (exec .ivsetup (withBytes (withArgs 0x60 0 8 0) 0x60 [0, 0, 0, 0x4a]))
    (fun t => t.nonce = #v[0x4A000000, 0] && t.next = 64) = true := by decide
/-- V-CTX-10 and V-ERR-5. -/
theorem test_setrounds : answers (exec (.setrounds 12) zeroContext) (fun t => t.cfgWord = 0x0C0F) = true := by decide
theorem test_setrounds_ten : answers (exec (.setrounds 10) zeroContext) (fun t => t.statusWord = 0x312) = true := by decide
theorem test_seek : answers (exec .seek { withArgs 0x00000001 0x09000000 0 0 with gen := true, next := 3 })
    (fun t => t.ctr = 0x0900000000000001 && t.statusWord = 0x10) = true := by decide
/-- V-ERR-10: SEEK under FATAL has no effect. -/
theorem test_seek_under_fatal : answers (exec .seek { withArgs 1 1 0 0 with fatal := true, cause := .insufficientOutputSpace })
    (fun t => t.ctr = 0 && t.statusWord = 0x412) = true := by decide
theorem test_getctr : answers (exec .getctr { zeroContext with ctr := 0x0900000000000001 })
    (fun t => t.res0 = 0x00000001 && t.res1 = 0x09000000) = true := by decide
/-- V-CTX-13 and V-ERR-6. -/
theorem test_tune : answers (exec (.tune false) (withArgs 1 2 0 0))
    (fun t => t.cfgWord = 0x140E && t.bpc = 1 && t.maxw = 2) = true := by decide
theorem test_tune_zero : answers (exec (.tune true) (withArgs 0 4 0 0)) (fun t => t.statusWord = 0xB12) = true := by decide

/-! ### Keystream commands (V-KS, V-ERR) -/

/-- V-KS-1: 42_keystream.md R177's worked example. -/
theorem test_xor_in_place : answers (exec .xor (withBytes (withArgs 0x200 0x200 4 4) 0x200 [1, 2, 3, 4]))
    (fun t => t.mem.readBytes 0x200 4 = [0x77, 0xba, 0xe3, 0xa9] && t.res0 = 4 && t.ctr = 1 && t.statusWord = 0x20)
    = true := by decide +kernel
/-- V-ERR-2. -/
theorem test_xor_overlap : answers (exec .xor (withArgs 0x100 0x110 32 32)) (fun t => t.statusWord = 0xA12) = true := by decide
/-- V-PERM-3: the last bytes of the reference block. -/
theorem test_ks_block : answers (exec .ks (withArgs 0 0x100 64 0))
    (fun t => t.mem.readBytes 0x13C 4 = [0xb2, 0xee, 0x65, 0x86] && t.next = 64) = true := by decide +kernel
/-- P3 step 3, shortened to 65 bytes: KeystreamExhausted after the block at 2^64 − 1. -/
theorem test_ks_exhausts : answers (exec .ks { withArgs 0 0x100 65 0 with ctr := 0xFFFFFFFFFFFFFFFF })
    (fun t => t.res0 = 64 && t.statusWord = 0x53C && t.mem.readBytes 0x100 2 = [0xd7, 0x91] && t.ctr = 0) = true := by
  decide +kernel

/-! ### Steps and the scheduler -/

/-- V-ERR-7. -/
theorem test_step_illegal_word : answers (step { zeroContext with phase := .accepted 0x0000000A })
    (fun t => t.statusWord = 0x712) = true := by decide
theorem test_with_fetch_word : answers (step (State.reset.withFetchWord 32 0x00000006)) (fun t => t.res0 = 0 && !t.busy)
    = true := by decide

/-- A KS of 400 bytes to 0x100 with BPC = 2, MAXW = 1 from block 5, its leading step done (V-PAR-5). -/
def parJob : Job := { src := 0, dst := 0x100, len := 400, zero := true, i := 0, stage := .lead, start := { zeroContext.toEngine with ctr := 5 } }

/-- The state in which that job decides on a region. -/
def parState : State := { zeroContext with ctr := 5, bpc := 2, maxw := 1, phase := .running parJob }

/-- V-PAR-5: the region has BASE = 5 and N = 3. -/
theorem test_region_starts :
    parState.jobStep parJob 0 = parState.withRegion parJob
      { base := 5, n := 3, off := 0, sem := 1, pending := [0, 1, 2], running := [], done := [] } := by decide

/-- V-PAR-5: worker 1 starts at block 7, at command offset 128; with MAXW = 1 no other chunk can be admitted then. -/
theorem test_worker_start :
    let r := (parState.newRegion 0 400).admission parState.toEngine 2 1
    (newWorker parState.toEngine 5 2 1).ctr = 7 ∧ (newWorker parState.toEngine 5 2 1).offset 0 2 = 128 ∧
    r.moves 2 = [.block 1 0, .block 1 1] := by decide

/-! ### Witnesses: states and operands that meet the hypotheses of each statement -/

theorem witness_OpcodeRowsSelectExactlyTheLegalWords :
    decode 0x00FF0004 = .ok (.setrounds 255) ∧ decode 0x00000107 = .ok (.tune true) ∧ decode 0 = .error .opcode := by decide
theorem witness_IllegalWordsAreExactlyTheFourCases :
    decode 0x0A = .error .opcode ∧ decode 0x00000201 = .error .reservedBits ∧ decode 0x00000101 = .error .flagOperand ∧
    decode 0x00010001 = .error .immediateOperand := by decide
theorem witness_StepCarriesOutTheAcceptedCommand :
    let s := { zeroContext with phase := .accepted 5, agenda := [.core] }
    s.phase = .accepted 5 ∧ decode 5 = .ok .seek ∧ s.agenda.head? = some .core ∧ decodeTableWord 32 5 = some .seek := by
  decide
theorem witness_OnlyInitRunsUnderFatal :
    let s := { zeroContext with phase := .accepted 1, fatal := true, agenda := [.fine 3] }
    s.fatal = true ∧ s.phase = .accepted 1 ∧ s.coreToMove ∧ decode 1 = .ok .init ∧ decode 5 ≠ .ok .init ∧
    ({ s with phase := .idle, agenda := [.host (.writeReg 0x00 32 5)] } : State).fatal = true :=
  ⟨rfl, rfl, .inr (.inr ⟨3, rfl⟩), by decide, by decide, rfl⟩
theorem witness_IllegalWordEndsWithIllegalCommand :
    let s := { zeroContext with phase := .accepted 0 }
    s.phase = .accepted 0 ∧ decode 0 = .error .opcode ∧ s.coreToMove ∧ s.fatal = false ∧
    ({ s with fatal := true } : State).fatal = true := ⟨rfl, by decide, .inl rfl, rfl, rfl⟩
theorem witness_CmdWriteLatchesTheWordAndRaisesBusy :
    let s := { zeroContext with agenda := [.host (.writeReg 0x00 32 5)] }
    s.phase = .idle ∧ s.agenda = [.host (.writeReg 0x00 32 5)] := by decide
theorem witness_HostWriteWhileBusyIsDroppedAndSetsOvr :
    let s := { zeroContext with phase := .accepted 5, agenda := [.host (.writeReg 0x10 32 5)] }
    s.phase ≠ .idle ∧ 0x10 ∈ [0x00, 0x04, 0x08, 0x0C, 0x10] ∧ s.agenda = [.host (.writeReg 0x10 32 5)] := by decide
theorem witness_HostSeesNoIntermediateState :
    let s := { withArgs 0 0x100 1 0 with phase := .accepted 9, agenda := [.fine 0] }
    s.busy = true ∧ answers (step s) (·.busy) = true ∧ s.agenda.head? ≠ some (.host .reset) := by decide
theorem witness_ArgumentRegistersHoldWhatTheHostWrites :
    let s := { zeroContext with agenda := [.host (.writeReg 0x10 32 5)] }
    s.phase = .idle ∧ 0x10 ∈ [0x04, 0x08, 0x0C, 0x10] ∧ s.agenda = [.host (.writeReg 0x10 32 5)] ∧
    zeroContext.coreToMove ∧ step zeroContext = .next zeroContext := ⟨rfl, by decide, rfl, .inl rfl, rfl⟩
theorem witness_RegisterReadsFollowTheMap :
    let s := { zeroContext with agenda := [.host (.readReg 0x3C 32)] }
    s.agenda = [.host (.readReg 0x3C 32)] ∧ 15 < 16 ∧ 0x3C = 4 * 15 ∧ 0x40 ≤ 0x40 ∧ 0x3D % 4 ≠ 0 ∧ 16 ≠ 32 ∧
    ({ s with agenda := [.host (.writeReg 0x04 16 7)] } : State).agenda = [.host (.writeReg 0x04 16 7)] := by decide
theorem witness_StatusFieldsStandWhereR43Says :
    ({ zeroContext with agenda := [.host (.writeReg 0x14 32 5)] } : State).agenda = [.host (.writeReg 0x14 32 5)] ∧
    (∀ j, zeroContext.phase ≠ .running j) ∧
    ∃ j, ({ zeroContext with exh := true, phase := .running j } : State).viewEngine.exh = false :=
  ⟨rfl, fun _ h => (by cases h), zeroContext.newJob 0 0 0 true, rfl⟩
theorem witness_CfgFieldsStandWhereR45Says :
    ({ zeroContext with agenda := [.host (.writeReg 0x20 32 5)] } : State).agenda = [.host (.writeReg 0x20 32 5)] ∧
    (∀ j, zeroContext.phase ≠ .running j) ∧
    ({ zeroContext with phase := .running (zeroContext.newJob 0 0 0 true) } : State).viewEngine.rounds = 20 :=
  ⟨rfl, fun _ h => (by cases h), rfl⟩
theorem witness_OnlyTuneChangesTheTuningRegisters :
    let s := { withArgs 1 2 0 0 with phase := .accepted 0x107 }
    answers (step s) (fun t => t.bpc ≠ s.bpc && t.maxw ≠ s.maxw) = true ∧
    ({ s with agenda := [.host (.writeReg 0x3C 32 5)] } : State).agenda = [.host (.writeReg 0x3C 32 5)] ∧
    ({ s with agenda := [.host (.writeReg 0x18 32 5)] } : State).agenda = [.host (.writeReg 0x18 32 5)] := by decide
theorem witness_ResetSetsEveryRegister :
    let s := { withArgs 1 2 3 4 with agenda := [.host .reset] }
    s.phase = .idle ∧ s.agenda = [.host .reset] := by decide
theorem witness_ResetDuringACommandLeavesOldOrNewBytes :
    let s := { withArgs 0x100 0x100 16 16 with phase := .accepted 8, agenda := [.host .reset] }
    s.mem.wf ∧ s.busy = true ∧ s.currentJob = some (s.newJob 0x100 0x100 16 false) ∧ s.agenda = [.host .reset] ∧
    ({ s with phase := .accepted 1 } : State).busy = true ∧ ({ s with phase := .accepted 1 } : State).currentJob = none := by
  decide
theorem witness_HostAccessInARunningRangeFaults_xor :
    let s := { withArgs 0x100 0x200 16 16 with phase := .accepted 8, agenda := [.host (.writeMem 0x20F 1)] }
    s.phase = .accepted 8 ∧ decode 8 = .ok .xor ∧ 0x20F < s.cfg.memSize ∧ s.agenda = [.host (.writeMem 0x20F 1)] ∧
    s.fatal = false ∧ s.checkXor = none ∧ s.a1.toNat ≤ 0x20F ∧ 0x20F < s.a1.toNat + s.a2.toNat := by decide
theorem witness_HostAccessInARunningRangeFaults_ks :
    let s := { withArgs 0 0x200 16 0 with phase := .accepted 9, agenda := [.host (.readMem 0x200)] }
    decode 9 = .ok .ks ∧ s.agenda = [.host (.readMem 0x200)] ∧ s.fatal = false ∧ s.checkKs = none ∧
    s.a1.toNat ≤ 0x200 ∧ 0x200 < s.a1.toNat + s.a2.toNat := by decide
theorem witness_HostAccessInARunningRangeFaults_running :
    let s := withArgs 0 0 0 0
    let j := s.newJob 0x100 0x200 16 false
    let s := { s with phase := .running j, agenda := [.host (.writeMem 0x10F 1)] }
    s.phase = .running j ∧ 0x10F < s.cfg.memSize ∧ j.zero = false ∧ j.src ≤ 0x10F ∧ 0x10F < j.src + j.len ∧
    j.dst ≤ 0x20F ∧ 0x20F < j.dst + j.len := by decide
/-- The bytes next to the destination and the source of a running job, and the first address that does not exist. -/
theorem witness_HostMemoryAccessesMoveOneByte :
    let j := (withArgs 0 0 0 0).newJob 0x100 0x200 16 false
    let s := { withArgs 0 0 0 0 with phase := .running j, agenda := [.host (.writeMem 0x110 1)] }
    s.agenda = [.host (.writeMem 0x110 1)] ∧ 0x110 < s.cfg.memSize ∧ s.mem.wf ∧ (∀ w, s.phase ≠ .accepted w) ∧
    s.currentJob = some j ∧ 0x110 < j.dst ∧ j.src + j.len ≤ 0x110 ∧ j.dst + j.len ≤ 0x210 ∧ s.cfg.memSize ≤ 0x10000 ∧
    s.cfg.platformCoherent = true := ⟨rfl, by decide, by decide, fun _ h => (by cases h), rfl, by decide, by decide, by decide,
      by decide, rfl⟩
/-- The byte past the key of an accepted KEYSETUP, on an incoherent platform with a past memory. -/
theorem witness_HostMemoryAccessesMoveOneByte_accepted :
    let s := { withArgs 0x40 0 16 0 with
      phase := .accepted 2, agenda := [.host (.writeMem 0x50 1)], past := [[(0x50, 7)]]
      cfg := { Config.reset with platformCoherent := false } }
    s.agenda = [.host (.writeMem 0x50 1)] ∧ 0x50 < s.cfg.memSize ∧ s.mem.wf ∧ decode 2 = .ok .keysetup ∧
    s.contextReads .keysetup = [(0x40, 16)] ∧ s.currentJob = none ∧ s.cfg.platformCoherent = false := by decide
/-- A host write keeps the byte's old value among those an incoherent platform may show, and the platform's action drops
it (U10). -/
theorem test_past_values :
    answers (step { withBytes zeroContext 0x50 [7] with agenda := [.host (.writeMem 0x50 1)] })
      (fun t => t.mem.read 0x50 = 1 && t.past.map (·.read 0x50) = [7]) = true ∧
    answers (step { zeroContext with past := [[(0x50, 7)]], agenda := [.sync] }) (fun t => t.past.all (·.read 0x50 = 0)) = true := by decide
theorem witness_BusAccessesReachTheWindowAndTheBuffer :
    State.reset.cfg.ok ∧ 0x3F < 0x40 ∧ 0x1003F = State.reset.cfg.regBase + 0x3F ∧
    0xFFFF = State.reset.cfg.bufBase + 0xFFFF ∧ 0xFFFF < State.reset.cfg.memSize ∧
    ({ zeroContext with agenda := [.bus (.read 0x10014 32)] } : State).agenda = [.bus (.read 0x10014 32)] ∧
    ({ zeroContext with agenda := [.bus (.write 0xFFFF 8 5)] } : State).agenda = [.bus (.write 0xFFFF 8 5)] := by decide
/-- STATUS at REG_BASE + 0x14; the last byte of buffer memory; an address that reaches neither. -/
theorem test_bus_routes :
    answers (step { zeroContext with agenda := [.bus (.read 0x10014 32)] }) (fun t => t.rdata = 0x10) = true ∧
    answers (step { zeroContext with agenda := [.bus (.write 0xFFFF 8 5)] }) (fun t => t.mem.read 0xFFFF = 5) = true ∧
    refusalOf (step { zeroContext with agenda := [.bus (.read 0x10040 32)] }) = some .busAccessNotRouted := by decide
theorem witness_HostAccessInARunningRangeFaults_init :
    let s := { withArgs 0 0x20 32 8 with phase := .accepted 1, agenda := [.host (.writeMem 0x27 1)] }
    decode 1 = .ok .init ∧ 0x27 < s.cfg.memSize ∧ s.checkInit = none ∧ s.a1.toNat ≤ 0x27 ∧ 0x27 < s.a1.toNat + 8 := by decide
theorem witness_HostAccessInARunningRangeFaults_keysetup :
    let s := { withArgs 0 0 16 0 with phase := .accepted 2 }
    decode 2 = .ok .keysetup ∧ s.fatal = false ∧ s.checkKeysetup = none ∧ s.a0.toNat ≤ 15 ∧ 15 < s.a0.toNat + s.a2.toNat := by
  decide
theorem witness_HostAccessInARunningRangeFaults_ivsetup :
    let s := { withArgs 0 0 8 0 with phase := .accepted 3 }
    decode 3 = .ok .ivsetup ∧ s.fatal = false ∧ s.checkIvsetup = none ∧ s.a0.toNat ≤ 7 ∧ 7 < s.a0.toNat + 8 := by decide
theorem witness_MemReadAndMemWriteMoveExactlyTheirBytes : Memory.wf [(3, 1), (4, 2)] ∧ 1 < 2 := by decide
theorem witness_CanonicalMemoriesThatReadAlikeAreEqual :
    Memory.wf [(3, 1)] ∧ Memory.wf (Memory.write [(3, 1), (4, 2)] 4 0) ∧
    ∀ a, Memory.read [(3, 1)] a = Memory.read (Memory.write [(3, 1), (4, 2)] 4 0) a :=
  ⟨by decide, by decide, fun _ => rfl⟩
theorem witness_XorRejectsExactlyPartialOverlap :
    let s := withArgs 0x100 0x11F 32 32
    s.fatal = false ∧ s.keyset = true ∧ s.ivset = true ∧ s.term = false ∧ s.a2.toNat ≤ s.a3.toNat ∧
    s.a0.toNat + s.a2.toNat ≤ s.cfg.memSize ∧ s.a1.toNat + s.a2.toNat ≤ s.cfg.memSize := by decide
theorem witness_IndexedQuarterRoundTouchesFourWords : [(0 : Fin 16), 5, 10, 15].Nodup ∧ (1 : Fin 16) ∉ [0, 5, 10, 15] := by
  decide
theorem witness_QuarterRoundsOfOneRoundCommute :
    List.Perm [((3 : Fin 16), (7 : Fin 16), (11 : Fin 16), (15 : Fin 16)), (0, 4, 8, 12), (1, 5, 9, 13), (2, 6, 10, 14)]
      [(0, 4, 8, 12), (1, 5, 9, 13), (2, 6, 10, 14), (3, 7, 11, 15)] := by decide
theorem witness_InitConstructsTheContext :
    let s := { withArgs 0xFFE0 0xFFF8 32 8 with fatal := true }
    s.a2 = 32 ∧ s.a3 = 8 ∧ s.a0.toNat + s.a2.toNat ≤ s.cfg.memSize ∧ s.a1.toNat + 8 ≤ s.cfg.memSize := by decide
theorem witness_KeysetupLoadsTheKey :
    let s := withArgs 0xFFF0 0 16 0
    s.fatal = false ∧ s.a2 = 16 ∧ s.a0.toNat + s.a2.toNat ≤ s.cfg.memSize := by decide
theorem witness_IvsetupLoadsTheNonceAndRewinds :
    let s := withArgs 0xFFF8 0 8 0
    s.fatal = false ∧ s.a2 = 8 ∧ s.a0.toNat + 8 ≤ s.cfg.memSize := by decide
theorem witness_SetroundsWritesLegalRoundCountsOnly :
    zeroContext.fatal = false ∧ (20 : BitVec 8).toNat ∈ [8, 12, 20] ∧ (21 : BitVec 8).toNat ∉ [8, 12, 20] := by decide
theorem witness_SeekRepositionsToTheBlock : (withArgs 0xFFFFFFFF 0xFFFFFFFF 0 0).fatal = false := by decide
theorem witness_GetctrReturnsTheCounter : zeroContext.fatal = false := by decide
theorem witness_TuneWritesTheTuningRegisters :
    (withArgs 1 0xFFFFFFFF 0 0).fatal = false ∧ (withArgs 1 0xFFFFFFFF 0 0).a0 ≠ 0 ∧ (withArgs 1 0xFFFFFFFF 0 0).a1 ≠ 0 ∧
    (withArgs 0 1 0 0).a0 = 0 ∧ (withArgs 1 0 0 0).a1 = 0 := by decide
theorem witness_WhichCommandsMoveTheStreamPosition :
    Instr.getctr ≠ .xor ∧ Instr.getctr ≠ .ks ∧ Instr.getctr ≠ .init ∧ Instr.getctr ≠ .ivsetup ∧ Instr.getctr ≠ .seek ∧
    answers (exec .getctr zeroContext) (fun _ => true) = true ∧
    answers (exec .seek zeroContext) (fun t => !t.fatal) = true := by decide
theorem witness_ContextCommandsRejectInTheOrderOfTheirChecks :
    (withArgs 0 0 17 8).a2.toNat ∉ [16, 32] ∧
    (withArgs 0 0 16 7).a2.toNat ∈ [16, 32] ∧ (withArgs 0 0 16 7).a3.toNat ≠ 8 ∧
    (withArgs 0 0xFFF9 32 8).a3.toNat = 8 ∧ (withArgs 0 0xFFF9 32 8).cfg.memSize < (withArgs 0 0xFFF9 32 8).a1.toNat + 8 ∧
    (withArgs 0xFFF1 0 16 0).cfg.memSize < (withArgs 0xFFF1 0 16 0).a0.toNat + (withArgs 0xFFF1 0 16 0).a2.toNat ∧
    (withArgs 0 0 9 0).a2.toNat ≠ 8 ∧
    (withArgs 0xFFF9 0 8 0).cfg.memSize < (withArgs 0xFFF9 0 8 0).a0.toNat + 8 ∧ zeroContext.fatal = false := by decide
theorem witness_GenerateBlockCarriesIntoTheHighWord :
    ({ zeroContext with ctr := 0xFFFFFFFFFFFFFFFF } : State).toEngine.exh = false := by decide
/-- In place, disjoint, and of no bytes at any addresses. -/
theorem witness_XorWritesSourceXorKeystream :
    let s := withArgs 0x100 0x100 200 200
    let z := withArgs 0xFFFFFFFF 0xFFFFFFFE 0 0
    s.mem.wf ∧ s.fatal = false ∧ s.keyset = true ∧ s.ivset = true ∧ s.term = false ∧ s.a2.toNat ≤ s.a3.toNat ∧
    s.a0.toNat + s.a2.toNat ≤ s.cfg.memSize ∧ s.a1.toNat + s.a2.toNat ≤ s.cfg.memSize ∧ s.a0 = s.a1 ∧
    s.a2.toNat ≤ s.toEngine.capacity ∧ z.a2 = 0 ∧ z.a2.toNat ≤ z.toEngine.capacity ∧
    (withArgs 0x100 0x1C8 200 200).a0.toNat + 200 ≤ (withArgs 0x100 0x1C8 200 200).a1.toNat := by decide
theorem witness_KsWritesTheKeystream :
    let s := withArgs 0 0xFFE0 32 0
    s.mem.wf ∧ s.fatal = false ∧ s.keyset = true ∧ s.ivset = true ∧ s.term = false ∧
    s.a1.toNat + s.a2.toNat ≤ s.cfg.memSize ∧ s.a2.toNat ≤ s.toEngine.capacity := by decide
theorem witness_OutrunningTheStreamEndsWithKeystreamExhausted :
    let s := { withArgs 0x100 0x100 65 65 with ctr := 0xFFFFFFFFFFFFFFFF }
    let x := { withArgs 0x100 0x100 1 1 with exh := true, gen := true }
    s.mem.wf ∧ s.fatal = false ∧ s.keyset = true ∧ s.ivset = true ∧ s.term = false ∧ s.toEngine.capacity < s.a2.toNat ∧
    s.a1.toNat + s.a2.toNat ≤ s.cfg.memSize ∧ s.a2.toNat ≤ s.a3.toNat ∧ s.a0 = s.a1 ∧ s.exh = false ∧
    x.exh = true ∧ x.toEngine.capacity < x.a2.toNat := by decide
theorem witness_ZeroLengthRequestChangesNothing :
    let s := { withArgs 5 6 0 0 with exh := true }
    s.fatal = false ∧ s.keyset = true ∧ s.ivset = true ∧ s.a2 = 0 ∧ s.term = false ∧
    ({ s with term := true } : State).term = true := by decide
theorem witness_GenerationAfterTheTerminalSignalIsFatalMisuse :
    let s := { withArgs 0x100 0x200 8 4 with exh := true, term := true }
    s.fatal = false ∧ s.keyset = true ∧ s.ivset = true ∧ s.term = true := by decide
theorem witness_GenerationPreconditionsRejectInOrder :
    State.reset.fatal = false ∧ State.reset.keyset = false ∧ zeroContext.keyset = true ∧ zeroContext.ivset = true ∧
    zeroContext.term = false ∧ ({ zeroContext with term := true } : State).term = true ∧
    (withArgs 0xFFF0 0xFFF8 32 31).a3.toNat < (withArgs 0xFFF0 0xFFF8 32 31).a2.toNat ∧
    (withArgs 0 0xFFF0 32 32).cfg.memSize < (withArgs 0 0xFFF0 32 32).a1.toNat + (withArgs 0 0xFFF0 32 32).a2.toNat ∧
    (withArgs 0x100 0x11F 32 32).a1.toNat < (withArgs 0x100 0x11F 32 32).a0.toNat + (withArgs 0x100 0x11F 32 32).a2.toNat ∧
    (withArgs 0x100 0x11F 32 32).a0 ≠ (withArgs 0x100 0x11F 32 32).a1 := by decide
theorem witness_XorAndKsWriteOnlyTheirDestination :
    let s := withArgs 0x100 0x100 4 4
    s.mem.wf ∧ s.fatal = false ∧ answers (exec .xor s) (fun t => !t.fatal) = true ∧
    answers (exec .xor (withArgs 0 0 4 3)) (fun t => t.fatal) = true := by decide +kernel
theorem witness_SplittingARequestChangesNothing :
    let s := { withArgs 0x100 0x200 70 70 with ctr := 0xFFFFFFFFFFFFFFFF }
    s.mem.wf ∧ s.cfg.ok ∧ s.fatal = false ∧ s.keyset = true ∧ s.ivset = true ∧ s.term = false ∧ s.a2.toNat = 65 + 5 ∧
    s.a1.toNat + s.a2.toNat ≤ s.cfg.memSize ∧ s.a2.toNat ≤ s.a3.toNat ∧ s.a0.toNat + s.a2.toNat ≤ s.cfg.memSize ∧
    s.a0.toNat + s.a2.toNat ≤ s.a1.toNat := by decide
theorem witness_KsIsXorOfZeroBytes :
    let s := withArgs 0x300 0x400 200 200
    s.mem.wf ∧ s.fatal = false ∧ s.keyset = true ∧ s.ivset = true ∧ s.term = false ∧ s.a2.toNat ≤ s.a3.toNat ∧
    s.a0.toNat + s.a2.toNat ≤ s.cfg.memSize ∧ s.a1.toNat + s.a2.toNat ≤ s.cfg.memSize ∧
    s.a0.toNat + s.a2.toNat ≤ s.a1.toNat ∧ ∀ k, k < s.a2.toNat → s.mem.read (s.a0.toNat + k) = 0 :=
  ⟨by decide, rfl, rfl, rfl, rfl, by decide, by decide, by decide, by decide, fun _ _ => rfl⟩
theorem witness_XorOfTheOutputGivesTheMessageBack :
    let s := withArgs 0x100 0x200 4 4
    s.mem.wf ∧ s.fatal = false ∧ answers (exec .xor s) (fun t => t.cause = .ok && !t.fatal) = true ∧
    s.a1.toNat + s.a2.toNat ≤ s.cfg.memSize ∧ (0x300 : Word).toNat + s.a2.toNat ≤ s.cfg.memSize ∧
    s.a1.toNat + s.a2.toNat ≤ (0x300 : Word).toNat := by decide +kernel
theorem witness_FatalCommandsAreAllOrNothing :
    zeroContext.fatal = false ∧ answers (exec (.setrounds 10) zeroContext) (·.fatal) = true ∧
    answers (exec .init { zeroContext with fatal := true }) (·.fatal) = true := by decide
theorem witness_CommandsEndOnlyWithTheirCauses :
    zeroContext.fatal = false ∧ answers (exec .getctr zeroContext) (fun _ => true) = true := by decide
theorem witness_OnlyInitAndResetClearFatal :
    let s := { withArgs 0 0x20 32 8 with fatal := true, phase := .accepted 1 }
    s.fatal = true ∧ answers (step s) (fun t => !t.fatal) = true := by decide
theorem witness_OnlyResetClearsKeysetAndIvset :
    let s := { zeroContext with phase := .accepted 6 }
    answers (step s) (fun _ => true) = true ∧ s.agenda.head? ≠ some (.host .reset) ∧ s.keyset = true ∧ s.ivset = true := by
  decide
theorem witness_SecretsDoNotReachTheHostRegisters :
    zeroContext.differsInSecretsOnly { zeroContext with key := Vector.replicate 8 7 } ∧
    Instr.getctr ≠ .xor ∧ Instr.getctr ≠ .ks ∧ answers (exec .getctr zeroContext) (fun _ => true) = true :=
  ⟨rfl, by decide, by decide, by decide⟩
/-- Two accepted KS commands under different keys over different bytes. -/
theorem witness_SecretsDoNotReachTheHostRegisters_accepted :
    ({ withArgs 0 0x100 65 0 with phase := .accepted 9 } : State).sameButSecrets
      { withArgs 0 0x100 65 0 with phase := .accepted 9, key := Vector.replicate 8 7, mem := [(3, 4)] } := ⟨rfl, rfl, rfl⟩

/-- The zero context, with any arguments, phase and agenda but a running job, meets the invariant. -/
theorem zeroContext_inv (a0 a1 a2 a3 : Word) (w : Word) (l : List Turn) :
    ({ withArgs a0 a1 a2 a3 with phase := .accepted w, agenda := l } : State).Inv where
  memWf := Memory.wf_nil
  memBound := fun c hc => by cases hc
  cfg := (by decide : State.reset.cfg.ok)
  regs := ⟨by rfl, by simp [withArgs, zeroContext, State.reset, Engine.reset],
    by simp [withArgs, zeroContext, State.reset, Engine.reset]⟩
  tuning := ⟨by simp [withArgs, zeroContext, State.reset, Config.defaultBpc],
    by simp [withArgs, zeroContext, State.reset, Config.defaultMaxw]⟩
  unconfigured := by simp [withArgs, zeroContext, State.reset]
  job := fun j hj => by cases hj

theorem witness_LifecycleFollowsTheTransitionTable :
    let s : State := { withArgs 0 0x100 65 0 with phase := .accepted 9 }
    s.Inv ∧ s.fatal = false ∧ answers (exec .ks s) (fun t => !t.fatal) = true ∧ s.lifecycle ≠ .exhausted :=
  ⟨zeroContext_inv 0 0x100 65 0 9 [], rfl, by decide +kernel, by decide⟩
theorem witness_EveryStepKeepsTheInvariant :
    let s : State := { withArgs 0 0x100 4 0 with phase := .accepted 9, agenda := [.fine 0] }
    s.Inv ∧ answers (step s) (·.busy) = true := ⟨zeroContext_inv 0 0x100 4 0 9 [.fine 0], by decide⟩

/-- The region of V-PAR-5 with worker 1 admitted. -/
def parRegion : Region := (parState.newRegion 0 400).admission parState.toEngine 2 1

/-- The state of V-PAR-5 with that region. -/
def parRunning : State := parState.withRegion parJob parRegion

theorem parRunning_inv : parRunning.Inv where
  memWf := Memory.wf_nil
  memBound := fun c hc => by cases hc
  cfg := ⟨by decide, by decide⟩
  regs := ⟨by rfl, fun h => (by cases h), fun h => (by cases h)⟩
  tuning := ⟨by decide, by decide⟩
  unconfigured := fun h => by rcases h with h | h <;> cases h
  job := fun j hj => by
    cases hj
    exact {
      configured := ⟨rfl, rfl⟩
      fatal := rfl
      term := ⟨rfl, rfl⟩
      start := ⟨by rfl, fun h => (by cases h), fun h => (by cases h)⟩
      const := rfl
      key := rfl
      nonce := rfl
      rounds := rfl
      word := by decide
      reached := by decide
      dst := by decide
      src := fun h => by cases h
      region := fun r hr => by
        cases hr
        exact {
          next := rfl
          exh := rfl
          base := rfl
          chunks := by decide
          noWrap := by decide
          off := rfl
          inside := by decide
          slots := by decide
          partition := by decide
          workers := fun w hw => by
            rw [List.mem_singleton.mp hw]
            exact ⟨rfl, rfl, rfl, rfl, by decide, by decide⟩ } }

theorem witness_WorkersNeverReachTheLastBlock :
    parRunning.Inv ∧ parRunning.phase = .running { parJob with stage := .region parRegion } ∧
    newWorker parState.toEngine 5 2 1 ∈ parRegion.running ∧ 0 < (newWorker parState.toEngine 5 2 1).left :=
  ⟨parRunning_inv, rfl, by decide, by decide⟩
theorem witness_WorkerWritesOnlyItsOwnChunk :
    parRunning.Inv ∧ parRunning.phase = .running { parJob with stage := .region parRegion } ∧
    newWorker parState.toEngine 5 2 1 ∈ parRegion.running ∧ 0 < (newWorker parState.toEngine 5 2 1).left ∧
    0x17F < 0x100 + 0 + 1 * (64 * 2) := ⟨parRunning_inv, rfl, by decide, by decide, by decide⟩
/-- Two running regions whose workers hold different keys. -/
theorem witness_SecretsDoNotReachTheHostRegisters_running :
    let w := newWorker parState.toEngine 5 2 1
    let r := { parRegion with running := [{ w with key := Vector.replicate 8 7 }] }
    parRunning.sameButSecrets { parRunning with
      key := Vector.replicate 8 7, phase := .running { parJob with stage := .region r } } :=
  ⟨rfl, rfl, rfl, ⟨rfl, .cons rfl .nil⟩, rfl⟩

/-- A KS of 65 bytes with one-block chunks at r = 8: one chunk runs in a region, and one byte is left. -/
def regionStart : State :=
  { withArgs 0 0x100 65 0 with
    rounds := 8, bpc := 1, phase := .accepted 9, agenda := [3, 1, 4, 1, 5, 9, 2, 6, 5].map .fine }

theorem regionStart_inv : regionStart.Inv where
  memWf := Memory.wf_nil
  memBound := fun c hc => by cases hc
  cfg := (by decide : State.reset.cfg.ok)
  regs := ⟨by rfl, fun h => (by cases h), fun h => (by cases h)⟩
  tuning := ⟨by decide, by decide⟩
  unconfigured := fun h => by rcases h with h | h <;> cases h
  job := fun j hj => by cases hj

/-- It reaches a region after two steps and ends after nine: start, decision, admission, block, release, reposition,
GenerateBlock, byte, completion. -/
theorem witness_EveryInterleavingEndsLikeTheSequentialEngine_region :
    regionStart.Inv ∧ regionStart.phase = .accepted 9 ∧ decode 9 = .ok .ks ∧
    answers (steps 2 regionStart) (fun t => t.phase = .running
      { (regionStart.newJob 0 0x100 65 true) with
        stage := .region { base := 0, n := 1, off := 0, sem := 128, pending := [0], running := [], done := [] } }) = true ∧
    ∃ t, steps 9 regionStart = .next t ∧ decide (t.phase = .idle) = true :=
  ⟨regionStart_inv, rfl, by decide, by decide, of_answers (by decide +kernel)⟩
/-- A KS of no bytes: it begins, finds no region, and finishes. -/
theorem witness_EveryInterleavingEndsLikeTheSequentialEngine :
    let s : State := { withArgs 0 0x100 0 0 with phase := .accepted 9, agenda := [7, 8, 9, 10].map .fine }
    s.Inv ∧ s.phase = .accepted 9 ∧ decode 9 = .ok .ks ∧ 3 ≤ [7, 8, 9, 10].length ∧
    ∃ t, steps 3 s = .next t ∧ t.phase = .idle :=
  ⟨zeroContext_inv 0 0x100 0 0 9 _, rfl, by decide, by decide, _, rfl, rfl⟩
theorem witness_EveryInterleavingCompletes :
    let s : State := { withArgs 0 0x100 0 0 with phase := .accepted 9, agenda := [7, 8, 9, 10].map .fine }
    s.Inv ∧ s.phase = .accepted 9 ∧ decode 9 = .ok .ks ∧ s.agenda = [7, 8, 9, 10].map .fine ∧
    2 * s.a2.toNat + 4 ≤ [7, 8, 9, 10].length :=
  ⟨zeroContext_inv 0 0x100 0 0 9 _, rfl, by decide, rfl, by decide⟩
/-- V-ENC-2: the writes of `SEEK 0x0900000000000001`; one line of each other kind assembles. -/
theorem witness_HostWriteSequenceStartsTheCommand :
    (Asm.command (.seek 0x0900000000000001)).assemble =
      some [.writeReg 0x04 32 0x00000001, .writeReg 0x08 32 0x09000000, .writeReg 0x00 32 0x00000005] ∧
    (Asm.pseudo (.encryptip 0x100 16)).assemble =
      some [.writeReg 0x04 32 0x100, .writeReg 0x08 32 0x100, .writeReg 0x0C 32 16, .writeReg 0x10 32 16,
        .writeReg 0x00 32 8] ∧
    (∀ c ∈ [AsmCommand.init 1 2 3 4, .keysetup 1 2, .ivsetup 1 2, .setrounds 255, .getctr, .tune 1 2 3, .xor 1 2 3 4,
      .ks 1 (2 ^ 32 - 1)], (Asm.command c).assemble.isSome = true) ∧
    (∀ c ∈ [AsmPseudo.new 1 2 3 4, .encrypt 1 2 3 4, .decrypt 1 2 3 4, .xorkeystream 1 2 3, .keystream 1 2, .read 1 2],
      (Asm.pseudo c).assemble.isSome = true) ∧
    zeroContext.phase = .idle := by decide

end Sys2Proof.Tests
end

section
/-! SUPPORT. What one step can be, said once: what a command answers (`exec_cases`), what an atomic step of a running job
does (`JobStep`), what the core's move and a host access do (`CoreStep`, `HostStep`), and that every step is one of these
(`step_effect`). The proofs about all steps split along these cases. -/

namespace Sys2Proof.Machine

/-! ### Commands -/

/-- The check a command makes before it changes anything (R233 step 3); SEEK and GETCTR make none. -/
def State.checkOf (s : State) : Instr → Option Cause
  | .init => s.checkInit
  | .keysetup => s.checkKeysetup
  | .ivsetup => s.checkIvsetup
  | .setrounds r => checkSetrounds r
  | .seek => none
  | .getctr => none
  | .tune _ => s.checkTune
  | .xor => s.checkXor
  | .ks => s.checkKs

/-- The state a command leaves when its check passes. -/
def State.effectOf (s : State) : Instr → State
  | .init => s.construct.finish .ok 0 0
  | .keysetup => (s.loadKey (s.mem.readBytes s.a0.toNat s.a2.toNat) (s.a2.toNat = 32)).finish .ok 0 0
  | .ivsetup => ((s.loadNonce (s.mem.readBytes s.a0.toNat 8)).seekTo 0).finish .ok 0 0
  | .setrounds r => ({ s with rounds := r } : State).finish .ok 0 0
  | .seek => (s.seekTo s.seekIndex).finish .ok 0 0
  | .getctr => s.finish .ok s.ctrLo s.ctrHi
  | .tune f => ({ s with parEn := f, bpc := s.a0, maxw := s.a1 } : State).finish .ok 0 0
  | .xor => s.generate s.a0.toNat s.a1.toNat s.a2.toNat false
  | .ks => s.generate 0 s.a1.toNat s.a2.toNat true

theorem exec_init (s : State) : exec .init s = s.checked (s.checkOf .init) (s.effectOf .init) := rfl

/-- Every command but INIT is its check and its effect behind the gate under FATAL (R231). -/
theorem exec_of_ne_init {i : Instr} (hi : i ≠ .init) (s : State) :
    exec i s = s.gated (s.checked (s.checkOf i) (s.effectOf i)) := by
  cases i with
  | init => exact absurd rfl hi
  | _ => rfl

/-- The state after the command `i`: dropped under FATAL (R231), rejected by its check, or with its effect. -/
def State.afterCommand (s : State) (i : Instr) : State :=
  if i ≠ .init ∧ s.fatal = true then s.dropCommand
  else match s.checkOf i with
    | some c => s.reject c
    | none => s.effectOf i

/-- Every command answers the state after it. -/
theorem exec_eq (i : Instr) (s : State) : exec i s = .next (s.afterCommand i) := by
  unfold State.afterCommand
  by_cases hi : i = .init
  · subst hi
    rw [exec_init, if_neg (by simp)]
    cases s.checkOf .init <;> rfl
  · rw [exec_of_ne_init hi]
    cases hf : s.fatal with
    | true => rw [s.gated_of_fatal hf, if_pos ⟨hi, rfl⟩]
    | false =>
      rw [s.gated_of_clear hf, if_neg (by simp)]
      cases s.checkOf i <;> rfl

/-- What a command answers: it is dropped under FATAL, rejected by its check, or has its effect. -/
theorem exec_cases {i : Instr} {s t : State} (h : exec i s = .next t) :
    (s.fatal = true ∧ t = s.dropCommand) ∨ (i = .init ∨ s.fatal = false) ∧
      ((∃ c, s.checkOf i = some c ∧ t = s.reject c) ∨ (s.checkOf i = none ∧ t = s.effectOf i)) := by
  obtain rfl : s.afterCommand i = t := by simpa [exec_eq] using h
  unfold State.afterCommand
  split
  next hd => exact .inl ⟨hd.2, rfl⟩
  next hd =>
    have hf : i = .init ∨ s.fatal = false := by
      rwa [not_and_or, not_not, Bool.not_eq_true] at hd
    cases hc : s.checkOf i with
    | some c => exact .inr ⟨hf, .inl ⟨c, rfl, rfl⟩⟩
    | none => exact .inr ⟨hf, .inr ⟨rfl, rfl⟩⟩

/-! ### A running job -/

/-- What an atomic step of the running job `j` can do (R190, R288). -/
inductive JobStep (s : State) (j : Job) : State → Prop
  | byte (hstage : ∀ r, j.stage ≠ .region r) (hi : j.i < j.len) (hn : s.next ≠ 64) : JobStep s j (s.byteStep j)
  | enterRegion (hstage : j.stage = .lead) (hn : s.next = 64) (hruns : s.regionRuns (j.len - j.i) = true) :
      JobStep s j (s.withRegion j (s.newRegion j.i (j.len - j.i)))
  | enterRest (hstage : j.stage = .lead) (hruns : s.regionRuns (j.len - j.i) = false) :
      JobStep s j { s with phase := .running { j with stage := .rest } }
  | reposition (r : Region) (hstage : j.stage = .region r) (hb : r.barrier = true) :
      JobStep s j { s with
        toEngine := s.toEngine.reposition r.base (r.n * s.bpc.toNat)
        phase := .running { j with i := j.i + r.n * (64 * s.bpc.toNat), stage := .rest } }
  | move (r : Region) (m : Move) (hstage : j.stage = .region r) (hb : r.barrier = false)
      (hm : m ∈ r.moves s.cfg.numLanes) : JobStep s j (s.workerMove j r m)
  | wait (r : Region) (hstage : j.stage = .region r) (hb : r.barrier = false) (hm : r.moves s.cfg.numLanes = []) :
      JobStep s j s
  | complete (hstage : j.stage = .rest) (hi : j.len ≤ j.i) : JobStep s j (s.finish .ok (BitVec.ofNat 32 j.len) 0)
  | exhaust (hstage : j.stage = .rest) (hi : j.i < j.len) (hn : s.next = 64) (he : s.exh = true) : JobStep s j
      (({ s with toEngine := s.toEngine.exhaust } : State).finish .keystreamExhausted (BitVec.ofNat 32 j.i) 0)
  | generate (hstage : j.stage = .rest) (hi : j.i < j.len) (hn : s.next = 64) (he : s.exh = false) :
      JobStep s j { s with toEngine := s.toEngine.generateBlock }

/-- A region runs only where bytes remain. -/
theorem State.pos_of_regionRuns {s : State} {rest : Nat} (h : s.regionRuns rest = true) : 0 < rest := by
  simp only [State.regionRuns, Bool.and_eq_true, decide_eq_true_eq] at h
  omega

theorem State.jobStep_effect (s : State) (j : Job) (pick : Nat) : JobStep s j (s.jobStep j pick) := by
  unfold State.jobStep
  split
  next hl =>
    split
    next h => exact .byte (by simp [hl]) h.1 h.2
    next h =>
      unfold State.plan
      split
      next hr =>
        have hpos := State.pos_of_regionRuns hr
        exact .enterRegion hl (by_contra fun hn => h ⟨by omega, hn⟩) hr
      next hr => exact .enterRest hl (by simpa using hr)
  next r hr =>
    rcases s.regionStep_cases j r pick with ⟨hb, h⟩ | ⟨hb, m, hm, h⟩ | ⟨hb, hm, h⟩ <;> rw [h]
    · exact .reposition r hr hb
    · exact .move r m hr hb hm
    · exact .wait r hr hb hm
  next hl =>
    rcases s.seqStep_cases j with ⟨hi, h⟩ | ⟨hi, hn, he, h⟩ | ⟨hi, hn, he, h⟩ | ⟨hi, hn, h⟩ <;> rw [h]
    · exact .complete hl hi
    · exact .exhaust hl hi hn he
    · exact .generate hl hi hn he
    · exact .byte (by simp [hl]) hi hn

/-! ### The core and the host -/

/-- Why an accepted word is rejected: it is illegal (R232), or the check of its command applies (R233). -/
def State.rejects (s : State) (w : Word) (c : Cause) : Prop :=
  ((∃ e, decode w = .error e) ∧ s.fatal = false ∧ c = .illegalCommand) ∨
    ∃ i, decode w = .ok i ∧ (i = .init ∨ s.fatal = false) ∧ s.checkOf i = some c

/-- What a move of the core can do, in either way (R41, R288). -/
inductive CoreStep (s : State) : State → Prop
  | idle (hp : s.phase = .idle) : CoreStep s s
  | dropped (w : Word) (hp : s.phase = .accepted w) (hf : s.fatal = true) : CoreStep s s.dropCommand
  | rejected (w : Word) (c : Cause) (hp : s.phase = .accepted w) (hr : s.rejects w c) : CoreStep s (s.reject c)
  | completed (w : Word) (i : Instr) (hp : s.phase = .accepted w) (hd : decode w = .ok i)
      (hf : i = .init ∨ s.fatal = false) (hc : s.checkOf i = none) : CoreStep s (s.effectOf i)
  | begun (w : Word) (i : Instr) (j : Job) (hp : s.phase = .accepted w) (hd : decode w = .ok i)
      (hj : s.jobOf i = some j) : CoreStep s { s with phase := .running j }
  | job (j : Job) (t : State) (hp : s.phase = .running j) (ht : JobStep s j t) : CoreStep s t

theorem State.runWord_effect {s t : State} {w : Word} (hp : s.phase = .accepted w) (h : s.runWord w = .next t) :
    CoreStep s t := by
  unfold State.runWord at h
  split at h
  next e hd =>
    rcases State.gated_cases h with ⟨hf, rfl⟩ | ⟨hf, h⟩
    · exact .dropped w hp hf
    · cases h
      exact .rejected w .illegalCommand hp (.inl ⟨⟨e, hd⟩, hf, rfl⟩)
  next i hd =>
    rcases exec_cases h with ⟨hf, rfl⟩ | ⟨hf, ⟨c, hc, rfl⟩ | ⟨hc, rfl⟩⟩
    · exact .dropped w hp hf
    · exact .rejected w c hp (.inr ⟨i, hd, hf, hc⟩)
    · exact .completed w i hp hd hf hc

theorem State.coreMove_effect {s t : State} (h : s.coreMove = .next t) : CoreStep s t := by
  unfold State.coreMove at h
  split at h
  next hp => cases h; exact .idle hp
  next w hp => exact State.runWord_effect hp h
  next j hp => cases h; exact .job j _ hp (s.jobStep_effect j 0)

theorem decode_of_toOption {w : Word} {i : Instr} (h : (decode w).toOption = some i) : decode w = .ok i := by
  cases hd : decode w with
  | error e => simp [hd, Except.toOption] at h
  | ok k => simpa [hd, Except.toOption] using h

/-- The job of an accepted command is that of the instruction its word decodes to. -/
theorem State.currentJob_of_accepted {s : State} {w : Word} {j : Job} (hp : s.phase = .accepted w)
    (hj : s.currentJob = some j) : ∃ i, decode w = .ok i ∧ s.jobOf i = some j := by
  simp only [State.currentJob, State.acceptedInstr, hp] at hj
  obtain ⟨i, hi, hj⟩ := Option.bind_eq_some_iff.mp hj
  exact ⟨i, decode_of_toOption hi, hj⟩

theorem State.fineMove_effect {s t : State} {pick : Nat} (h : s.fineMove pick = .next t) : CoreStep s t := by
  unfold State.fineMove at h
  split at h
  next hp => cases h; exact .idle hp
  next w hp =>
    split at h
    next => exact State.runWord_effect hp h
    next j hj =>
      cases h
      obtain ⟨i, hd, hji⟩ := State.currentJob_of_accepted hp hj
      exact .begun w i j hp hd hji
  next j hp => cases h; exact .job j _ hp (s.jobStep_effect j pick)

/-- What a host access can do, but for the reset input (R41, R42, R48, R72). -/
inductive HostStep (s : State) : State → Prop
  | read (v : Word) (n : Nat) : HostStep s { s with rdata := v, draws := n }
  | overrun (hb : s.busy = true) : HostStep s { s with ovr := true }
  | accept (hp : s.phase = .idle) (w : Word) : HostStep s (s.accept w)
  | argument (hp : s.phase = .idle) (a0 a1 a2 a3 : Word) : HostStep s { s with a0 := a0, a1 := a1, a2 := a2, a3 := a3 }
  | ignored : HostStep s s
  | writeByte (a : Nat) (b : Byte) (ha : a < s.cfg.memSize) :
      HostStep s { s with mem := s.mem.write a b, past := s.remember }

@[simp] theorem State.busy_eq_false_iff {s : State} : s.busy = false ↔ s.phase = .idle := by
  unfold State.busy
  cases s.phase <;> simp

@[simp] theorem State.busy_eq_true_iff {s : State} : s.busy = true ↔ s.phase ≠ .idle := by
  rw [ne_eq, ← State.busy_eq_false_iff, Bool.not_eq_false]

/-- While BUSY = 0 a register write is carried out (R41, R42). -/
theorem State.writeRegister_of_idle {s : State} (hp : s.phase = .idle) (offset : Nat) (v : Word) :
    s.writeRegister offset v = s.storeRegister offset v := by
  simp [State.writeRegister, State.busy_eq_false_iff.mpr hp]

/-- While BUSY = 1 a write to a host-writable register is dropped and sets OVR (R48). -/
theorem State.writeRegister_of_busy {s : State} {offset : Nat} (hb : s.busy = true) (hw : hostWritable offset = true)
    (v : Word) : s.writeRegister offset v = { s with ovr := true } := by
  simp only [State.writeRegister, hb, hw, Bool.and_self, if_true]

/-- A write at an offset that is not host-writable is ignored, in every phase (R43 to R47). -/
theorem State.writeRegister_ignored {s : State} {offset : Nat} (hw : hostWritable offset = false) (v : Word) :
    s.writeRegister offset v = s := by
  simp only [State.writeRegister, hw, Bool.and_false, Bool.false_eq_true, if_false]
  unfold State.storeRegister
  split
  case h_6 => rfl
  all_goals exact absurd hw (by decide)

/-- What a register write can do. -/
theorem State.writeRegister_effect (s : State) (offset : Nat) (v : Word) : HostStep s (s.writeRegister offset v) := by
  cases hw : hostWritable offset with
  | false => rw [State.writeRegister_ignored hw]; exact .ignored
  | true =>
    cases hb : s.busy with
    | true => rw [State.writeRegister_of_busy hb hw]; exact .overrun hb
    | false =>
      have hp := State.busy_eq_false_iff.mp hb
      rw [State.writeRegister_of_idle hp]
      unfold State.storeRegister
      split
      · exact .accept hp v
      · exact .argument hp v s.a1 s.a2 s.a3
      · exact .argument hp s.a0 v s.a2 s.a3
      · exact .argument hp s.a0 s.a1 v s.a3
      · exact .argument hp s.a0 s.a1 s.a2 v
      · exact .ignored

theorem State.hostAccess_effect {s t : State} {a : HostAccess} (ha : a ≠ .reset) (h : s.hostAccess a = .next t) :
    HostStep s t := by
  cases a with
  | reset => exact absurd rfl ha
  | readReg offset width =>
    simp only [State.hostAccess] at h
    split at h <;> cases h
    exact .read _ s.draws
  | writeReg offset width v =>
    simp only [State.hostAccess] at h
    split at h <;> cases h
    exact s.writeRegister_effect offset v
  | readMem x =>
    simp only [State.hostAccess] at h
    split at h
    · cases h
    · split at h <;> cases h
      exact .read _ _
  | writeMem x b =>
    simp only [State.hostAccess] at h
    split at h
    · cases h
    · split at h <;> cases h
      exact .writeByte x b (by omega)

/-! ### One step -/

/-- What a step can do, from the state `s` whose agenda has lost the turn taken. -/
inductive StepEffect (s : State) : State → Prop
  | core (t : State) (h : CoreStep s t) : StepEffect s t
  | host (t : State) (h : HostStep s t) : StepEffect s t
  | sync : StepEffect s s.syncPlatform

/-- Every step that answers a next state is a move of the core, a host access, the platform's action, or the reset input. -/
theorem step_effect {s t : State} (h : step s = .next t) :
    (s.agenda.head? = some (.host .reset) ∧ t = s.nextTurn.resetCore) ∨ StepEffect s.nextTurn t := by
  rcases step_cases s with ⟨_, hs⟩ | ⟨pick, _, hs⟩ | ⟨a, ha, hs⟩ | ⟨b, _, hs⟩ | ⟨_, hs⟩ <;> rw [hs] at h
  · exact .inr (.core t (State.coreMove_effect h))
  · exact .inr (.core t (State.fineMove_effect h))
  · by_cases hr : a = .reset
    · subst hr
      cases h
      exact .inl ⟨ha, rfl⟩
    · exact .inr (.host t (State.hostAccess_effect hr h))
  · rcases s.nextTurn.busAccess_cases b with ⟨a, hroute, hb⟩ | ⟨_, hb⟩ <;> rw [hb] at h
    · have hr : a ≠ .reset := by
        rintro rfl
        exact BusAccess.route_ne_reset _ _ hroute
      exact .inr (.host t (State.hostAccess_effect hr h))
    · cases h
  · cases h
    exact .inr .sync

/-- A step other than the reset input. -/
theorem step_effect_of_not_reset {s t : State} (h : step s = .next t) (hr : s.agenda.head? ≠ some (.host .reset)) :
    StepEffect s.nextTurn t :=
  (step_effect h).resolve_left fun ⟨ha, _⟩ => hr ha

/-- Where the next turn is the core's, a step is a move of the core. -/
theorem step_core_effect {s t : State} (hc : s.coreToMove) (h : step s = .next t) : CoreStep s.nextTurn t := by
  cases hs : s.agenda with
  | nil =>
    rw [step_of_empty hs] at h
    rw [State.nextTurn_of_empty hs]
    exact State.coreMove_effect h
  | cons turn rest =>
    rw [step_of_turn hs] at h
    rw [State.nextTurn_of_turn hs]
    rcases hc with hc | hc | ⟨pick, hc⟩
    · simp [hs] at hc
    · obtain rfl : turn = .core := by simpa [hs] using hc
      exact State.coreMove_effect h
    · obtain rfl : turn = .fine pick := by simpa [hs] using hc
      exact State.fineMove_effect h

end Sys2Proof.Machine
end

section
/-! SUPPORT. The invariant: it holds at reset, and every step keeps it. One lemma per case of `StepEffect`. -/

namespace Sys2Proof.Machine

/-! ### What the invariant reads -/

theorem inMemory_iff {m a n : Nat} : inMemory m a n = true ↔ n = 0 ∨ a + n ≤ m := by
  simp [inMemory]

/-- A byte of a range in memory lies in memory. -/
theorem lt_of_inMemory {m a n i : Nat} (h : inMemory m a n = true) (hi : i < n) : a + i < m := by
  rcases inMemory_iff.mp h with h | h <;> omega

/-- A worker's clauses read CONST, KEY, NONCE and ROUNDS of the engine. -/
theorem Worker.Ok.congr {w : Worker} {e f : Engine} {base bpc : Nat} (h : w.Ok e base bpc)
    (hctx : f.const = e.const ∧ f.key = e.key ∧ f.nonce = e.nonce ∧ f.rounds = e.rounds) : w.Ok f base bpc := by
  obtain ⟨hconst, hkey, hnonce, hrounds⟩ := hctx
  exact ⟨h.const.trans hconst.symm, h.key.trans hkey.symm, h.nonce.trans hnonce.symm, h.rounds.trans hrounds.symm,
    h.left, h.ctr⟩

/-- A region's clauses read the job's offset and length, the context, NEXT, EXH, CTR, BPC and MAXW. -/
theorem Region.Ok.congr {r : Region} {j k : Job} {s t : State} (h : r.Ok j s) (hj : k.i = j.i ∧ k.len = j.len)
    (hctx : t.const = s.const ∧ t.key = s.key ∧ t.nonce = s.nonce ∧ t.rounds = s.rounds)
    (hseq : t.next = s.next ∧ t.exh = s.exh ∧ t.ctr = s.ctr) (ht : t.bpc = s.bpc ∧ t.maxw = s.maxw) : r.Ok k t := by
  obtain ⟨hi, hl⟩ := hj
  obtain ⟨hn, he, hc⟩ := hseq
  obtain ⟨hb, hm⟩ := ht
  exact {
    next := by rw [hn]; exact h.next
    exh := by rw [he]; exact h.exh
    base := by rw [hc]; exact h.base
    chunks := h.chunks
    noWrap := by rw [hb]; exact h.noWrap
    off := by rw [hi]; exact h.off
    inside := by rw [hb, hl]; exact h.inside
    slots := by rw [hm]; exact h.slots
    partition := h.partition
    workers := fun w hw => by rw [hb]; exact (h.workers w hw).congr hctx }

/-- A running job is in order after a step that moves its offset or stage and keeps the context. -/
theorem Job.Ok.advance {j : Job} {s t : State} {i : Nat} {stage : Stage} (h : j.Ok s)
    (hflags : t.keyset = s.keyset ∧ t.ivset = s.ivset ∧ t.fatal = s.fatal ∧ t.term = s.term ∧ t.cfg = s.cfg)
    (hctx : t.const = s.const ∧ t.key = s.key ∧ t.nonce = s.nonce ∧ t.rounds = s.rounds)
    (hi : i ≤ j.len) (hr : ∀ r, stage = .region r → r.Ok { j with i := i, stage := stage } t) :
    ({ j with i := i, stage := stage } : Job).Ok t := by
  obtain ⟨hk, hv, hf, ht, hcfg⟩ := hflags
  obtain ⟨hconst, hkey, hnonce, hrounds⟩ := hctx
  exact {
    configured := by rw [hk, hv]; exact h.configured
    fatal := by rw [hf]; exact h.fatal
    term := by rw [ht]; exact h.term
    start := h.start
    const := by rw [hconst]; exact h.const
    key := by rw [hkey]; exact h.key
    nonce := by rw [hnonce]; exact h.nonce
    rounds := by rw [hrounds]; exact h.rounds
    word := h.word
    reached := hi
    dst := by rw [hcfg]; exact h.dst
    src := by rw [hcfg]; exact h.src
    region := hr }

/-- The invariant but for its clause on a running job reads the engine, KEYSET, IVSET, BPC, MAXW and the parameters. -/
theorem State.Inv.to_phase {s t : State} (h : s.Inv) (he : t.toEngine = s.toEngine)
    (hf : t.keyset = s.keyset ∧ t.ivset = s.ivset) (ht : t.bpc = s.bpc ∧ t.maxw = s.maxw) (hc : t.cfg = s.cfg)
    (hp : ∀ j, t.phase = .running j → j.Ok t) : t.Inv := by
  obtain ⟨hk, hv⟩ := hf
  obtain ⟨hb, hm⟩ := ht
  exact {
    memWf := by rw [he]; exact h.memWf
    memBound := by rw [he, hc]; exact h.memBound
    cfg := by rw [hc]; exact h.cfg
    regs := by rw [he]; exact h.regs
    tuning := by rw [hb, hm]; exact h.tuning
    unconfigured := by rw [hk, hv, he]; exact h.unconfigured
    job := hp }

/-- The invariant reads the engine, KEYSET, IVSET, FATAL, BPC, MAXW, the phase and the parameters. -/
theorem State.Inv.congr {s t : State} (h : s.Inv) (he : t.toEngine = s.toEngine)
    (hf : t.keyset = s.keyset ∧ t.ivset = s.ivset ∧ t.fatal = s.fatal) (ht : t.bpc = s.bpc ∧ t.maxw = s.maxw)
    (hp : t.phase = s.phase) (hc : t.cfg = s.cfg) : t.Inv := by
  obtain ⟨hk, hv, hfatal⟩ := hf
  refine h.to_phase he ⟨hk, hv⟩ ht hc fun j hj => ?_
  have hok := h.job j (hp ▸ hj)
  exact hok.advance ⟨hk, hv, hfatal, by rw [he], hc⟩ (by simp only [he, and_self]) hok.reached fun r hr =>
    (hok.region r hr).congr ⟨rfl, rfl⟩ (by simp only [he, and_self]) (by simp only [he, and_self]) ht

theorem State.Inv.nextTurn {s : State} (h : s.Inv) : s.nextTurn.Inv :=
  h.congr rfl ⟨rfl, rfl, rfl⟩ ⟨rfl, rfl⟩ rfl rfl

/-- A completed command leaves the invariant of the state it finishes, in which no job need be in order. -/
theorem State.Inv.finish {s : State} (h : s.Inv) (c : Cause) (r0 r1 : Word) : (s.finish c r0 r1).Inv :=
  h.to_phase rfl ⟨rfl, rfl⟩ ⟨rfl, rfl⟩ rfl (by simp)

theorem State.Inv.dropCommand {s : State} (h : s.Inv) : s.dropCommand.Inv :=
  h.to_phase rfl ⟨rfl, rfl⟩ ⟨rfl, rfl⟩ rfl (by simp)

/-! ### R39 through the engine's steps -/

theorem Engine.RegsOk.of_reset {e : Engine} (hr : roundsOk e.rounds = true) (ht : e.term = false) (he : e.exh = false) :
    e.RegsOk :=
  ⟨hr, by simp [ht], by simp [he]⟩

theorem Engine.RegsOk.xorByte {e : Engine} (h : e.RegsOk) (src dst : Nat) (zero : Bool) (i : Nat) :
    (e.xorByte src dst zero i).RegsOk :=
  ⟨by simpa using h.rounds, by simpa using h.termExh, by simpa using h.exhCtr⟩

/-- A block is generated only with EXH = 0, and EXH is set exactly where CTR wraps to 0 (R171). -/
theorem Engine.RegsOk.generateBlock {e : Engine} (h : e.RegsOk) (he : e.exh = false) : e.generateBlock.RegsOk where
  rounds := h.rounds
  termExh := fun ht => by simp [h.termExh ht] at he
  exhCtr := by simp [he]

theorem Engine.RegsOk.exhaust {e : Engine} (h : e.RegsOk) (he : e.exh = true) : e.exhaust.RegsOk :=
  ⟨h.rounds, fun _ => he, h.exhCtr⟩

theorem Engine.RegsOk.reposition {e : Engine} (h : e.RegsOk) (he : e.exh = false) (base : BlockIndex) (n : Nat) :
    (e.reposition base n).RegsOk :=
  ⟨h.rounds, h.termExh, by simp [he]⟩

theorem seqRun_regsOk {e : Engine} (h : e.RegsOk) (src dst : Nat) (zero : Bool) (n i : Nat) :
    (seqRun src dst zero n i e).engine.RegsOk :=
  seqRun_induction (P := Engine.RegsOk) (fun _ hf _ he => hf.generateBlock he) (fun _ _ hf _ => hf.xorByte ..)
    (fun _ hf _ he => hf.exhaust he) n i e h

/-- The XOR step below a bound keeps every listed address below it. -/
theorem Engine.xorByte_bound {e : Engine} {n dst i : Nat} (h : ∀ c ∈ e.mem, c.1 < n) (hd : dst + i < n)
    (src : Nat) (zero : Bool) : ∀ c ∈ (e.xorByte src dst zero i).mem, c.1 < n := by
  unfold Engine.xorByte
  split
  · exact Memory.write_bound _ h hd
  · exact h

/-- SeqRun over a range below a bound keeps every listed address below it. -/
theorem seqRun_bound {src dst m : Nat} {zero : Bool} (n i : Nat) {e : Engine} (h : ∀ c ∈ e.mem, c.1 < m)
    (hd : n = 0 ∨ dst + (i + n) ≤ m) : ∀ c ∈ (seqRun src dst zero n i e).engine.mem, c.1 < m := by
  induction n generalizing i e with
  | zero => exact h
  | succ n ih =>
    have hx {f : Engine} (hf : ∀ c ∈ f.mem, c.1 < m) := Engine.xorByte_bound (dst := dst) (i := i) hf (by omega) src zero
    by_cases hn : e.next = 64
    · cases he : e.exh with
      | true => rw [seqRun_exhausted hn he]; exact h
      | false => rw [seqRun_generates hn he]; exact ih _ (hx h) (by omega)
    · rw [seqRun_buffered hn]
      exact ih _ (hx h) (by omega)

/-! ### Commands -/

/-- What XOR's checks leave true (R176, R177). -/
theorem State.checkXor_none {s : State} (h : s.checkXor = none) :
    (s.keyset = true ∧ s.ivset = true) ∧ s.term = false ∧ inMemory s.cfg.memSize s.a0.toNat s.a2.toNat = true ∧
      inMemory s.cfg.memSize s.a1.toNat s.a2.toNat = true ∧
      partialOverlap s.a0.toNat s.a1.toNat s.a2.toNat = false := by
  unfold State.checkXor at h
  split_ifs at h with hk ht hl hm ho
  simp_all

/-- What KS's checks leave true (R176, R178). -/
theorem State.checkKs_none {s : State} (h : s.checkKs = none) :
    (s.keyset = true ∧ s.ivset = true) ∧ s.term = false ∧ inMemory s.cfg.memSize s.a1.toNat s.a2.toNat = true := by
  unfold State.checkKs at h
  split_ifs at h with hk ht hm
  simp_all

theorem State.checkTune_none {s : State} (h : s.checkTune = none) : s.a0 ≠ 0 ∧ s.a1 ≠ 0 := by
  simpa [State.checkTune] using h

theorem roundsOk_of_checkSetrounds {r : BitVec 8} (h : checkSetrounds r = none) : roundsOk r = true := by
  simpa [checkSetrounds] using h

/-- An XOR or KS carried out whole. -/
theorem State.Inv.generate {s : State} (h : s.Inv) (hk : s.keyset = true ∧ s.ivset = true) {src dst len : Nat} {zero : Bool}
    (hd : inMemory s.cfg.memSize dst len = true) : (s.generate src dst len zero).Inv where
  memWf := seqRun_wf h.memWf ..
  memBound := seqRun_bound (m := s.cfg.memSize) len 0 h.memBound (by simpa using inMemory_iff.mp hd)
  cfg := h.cfg
  regs := seqRun_regsOk h.regs ..
  tuning := h.tuning
  unconfigured := fun hn => by
    have : s.keyset = false ∨ s.ivset = false := hn
    simp [hk] at this
  job := by simp [State.generate]

/-- A command whose check passes keeps the invariant. -/
theorem State.Inv.effectOf {s : State} (h : s.Inv) {i : Instr} (hc : s.checkOf i = none) : (s.effectOf i).Inv := by
  cases i with
  | init => exact ⟨h.memWf, h.memBound, h.cfg, .of_reset rfl rfl rfl, h.tuning, fun _ => ⟨rfl, rfl⟩, by simp [State.effectOf]⟩
  | keysetup =>
    refine ⟨h.memWf, h.memBound, h.cfg, ⟨h.regs.rounds, h.regs.termExh, h.regs.exhCtr⟩, h.tuning, fun hn => ?_,
      by simp [State.effectOf]⟩
    exact h.unconfigured (.inr (by simpa [State.effectOf] using hn))
  | ivsetup => exact ⟨h.memWf, h.memBound, h.cfg, .of_reset h.regs.rounds rfl rfl, h.tuning, fun _ => ⟨rfl, rfl⟩,
      by simp [State.effectOf]⟩
  | setrounds r => exact ⟨h.memWf, h.memBound, h.cfg, ⟨roundsOk_of_checkSetrounds hc, h.regs.termExh, h.regs.exhCtr⟩,
      h.tuning, h.unconfigured, by simp [State.effectOf]⟩
  | seek => exact ⟨h.memWf, h.memBound, h.cfg, .of_reset h.regs.rounds rfl rfl, h.tuning, fun _ => ⟨rfl, rfl⟩,
      by simp [State.effectOf]⟩
  | getctr => exact h.finish ..
  | tune f => exact ⟨h.memWf, h.memBound, h.cfg, h.regs, State.checkTune_none hc, h.unconfigured, by simp [State.effectOf]⟩
  | xor =>
    obtain ⟨hk, _, _, hd, _⟩ := State.checkXor_none hc
    exact h.generate hk hd
  | ks =>
    obtain ⟨hk, _, hd⟩ := State.checkKs_none hc
    exact h.generate hk hd

/-! ### The job of a command, and reset -/

/-- The job of a command that passes its preconditions is in order (R176). -/
theorem State.Inv.newJob_ok {s : State} (h : s.Inv) {src dst : Nat} {len : Word} {zero : Bool}
    (hk : s.keyset = true ∧ s.ivset = true) (hf : s.fatal = false) (ht : s.term = false)
    (hd : inMemory s.cfg.memSize dst len.toNat = true)
    (hs : zero = false → inMemory s.cfg.memSize src len.toNat = true ∧ partialOverlap src dst len.toNat = false) :
    (s.newJob src dst len.toNat zero).Ok s where
  configured := hk
  fatal := hf
  term := ⟨ht, ht⟩
  start := h.regs
  const := rfl
  key := rfl
  nonce := rfl
  rounds := rfl
  word := len.isLt
  reached := Nat.zero_le _
  dst := hd
  src := hs
  region := by simp [State.newJob]

theorem State.Inv.jobOf_ok {s : State} (h : s.Inv) {i : Instr} {j : Job} (hj : s.jobOf i = some j) : j.Ok s := by
  cases i with
  | xor =>
    simp only [State.jobOf] at hj
    split at hj <;> cases hj
    next hx =>
      simp only [Bool.or_eq_true, not_or, Bool.not_eq_true, Option.isSome_eq_false_iff, Option.isNone_iff_eq_none] at hx
      obtain ⟨hk, ht, hs, hd, ho⟩ := State.checkXor_none hx.2
      exact h.newJob_ok hk hx.1 ht hd fun _ => ⟨hs, ho⟩
  | ks =>
    simp only [State.jobOf] at hj
    split at hj <;> cases hj
    next hx =>
      simp only [Bool.or_eq_true, not_or, Bool.not_eq_true, Option.isSome_eq_false_iff, Option.isNone_iff_eq_none] at hx
      obtain ⟨hk, ht, hd⟩ := State.checkKs_none hx.2
      exact h.newJob_ok hk hx.1 ht hd (by simp)
  | _ => cases hj

/-- The job of the command being executed is in order, whether it has begun or not. -/
theorem State.Inv.currentJob_ok {s : State} (h : s.Inv) {j : Job} (hj : s.currentJob = some j) : j.Ok s := by
  cases hp : s.phase with
  | idle => simp [State.currentJob, hp] at hj
  | accepted w =>
    obtain ⟨i, _, hji⟩ := State.currentJob_of_accepted hp hj
    exact h.jobOf_ok hji
  | running k =>
    have hk : k = j := by simpa [State.currentJob, hp] using hj
    exact hk ▸ h.job k hp

/-- Reset writes no byte outside the destination of the abandoned command (R261). -/
theorem State.Inv.memAfterReset {s : State} (h : s.Inv) :
    s.memAfterReset.wf ∧ ∀ c ∈ s.memAfterReset, c.1 < s.cfg.memSize := by
  unfold State.memAfterReset
  split
  · exact ⟨h.memWf, h.memBound⟩
  next j hj =>
    refine ⟨Memory.writeBytes_wf h.memWf .., ?_⟩
    rcases inMemory_iff.mp (h.currentJob_ok hj).dst with hl | hl
    · simpa [hl, Memory.writeBytes] using h.memBound
    · exact Memory.writeBytes_bound h.memBound (by simpa using hl)

theorem State.reset_inv : State.reset.Inv where
  memWf := Memory.wf_nil
  memBound := by simp [State.reset, Engine.reset]
  cfg := by decide
  regs := .of_reset rfl rfl rfl
  tuning := by decide
  unconfigured := fun _ => ⟨rfl, rfl⟩
  job := by simp [State.reset]

theorem State.Inv.resetCore {s : State} (h : s.Inv) : s.resetCore.Inv where
  memWf := h.memAfterReset.1
  memBound := h.memAfterReset.2
  cfg := h.cfg
  regs := .of_reset rfl rfl rfl
  tuning := State.reset_inv.tuning
  unconfigured := fun _ => ⟨rfl, rfl⟩
  job := by simp [State.resetCore, State.reset]

/-! ### The steps of a running job -/

/-- While a job runs, its state meets the invariant if memory, the engine and the job do. -/
theorem State.Inv.of_running {s t : State} {j k : Job} (h : s.Inv) (hj : s.phase = .running j) (hp : t.phase = .running k)
    (hf : t.keyset = s.keyset ∧ t.ivset = s.ivset) (ht : t.bpc = s.bpc ∧ t.maxw = s.maxw) (hc : t.cfg = s.cfg)
    (hwf : t.mem.wf) (hb : ∀ c ∈ t.mem, c.1 < s.cfg.memSize) (hregs : t.toEngine.RegsOk) (hk : k.Ok t) : t.Inv where
  memWf := hwf
  memBound := by rw [hc]; exact hb
  cfg := by rw [hc]; exact h.cfg
  regs := hregs
  tuning := by rw [ht.1, ht.2]; exact h.tuning
  unconfigured := by rw [hf.1, hf.2]; simp [(h.job j hj).configured]
  job := fun k' hk' => by
    cases hp.symm.trans hk'
    exact hk

/-- A byte of the command's range (R172). -/
theorem State.Inv.byteStep {s : State} {j : Job} (h : s.Inv) (hj : s.phase = .running j)
    (hstage : ∀ r, j.stage ≠ .region r) (hi : j.i < j.len) : (s.byteStep j).Inv := by
  have hok := h.job j hj
  refine h.of_running hj (s.byteStep_phase j) ⟨rfl, rfl⟩ ⟨rfl, rfl⟩ rfl (Engine.xorByte_wf h.memWf ..)
    (Engine.xorByte_bound h.memBound (lt_of_inMemory hok.dst hi) j.src j.zero) (h.regs.xorByte ..) ?_
  exact hok.advance ⟨rfl, rfl, rfl, by simp, rfl⟩ (by simp) hi fun r hr => absurd hr (hstage r)

theorem State.Inv.generateStep {s : State} {j : Job} (h : s.Inv) (hj : s.phase = .running j)
    (hstage : ∀ r, j.stage ≠ .region r) (he : s.exh = false) :
    ({ s with toEngine := s.toEngine.generateBlock } : State).Inv := by
  have hok := h.job j hj
  refine h.of_running hj hj ⟨rfl, rfl⟩ ⟨rfl, rfl⟩ rfl h.memWf h.memBound (h.regs.generateBlock he) ?_
  exact hok.advance ⟨rfl, rfl, rfl, rfl, rfl⟩ ⟨rfl, rfl, rfl, rfl⟩ hok.reached fun r hr => absurd hr (hstage r)

/-- The exhaustion stop ends the command (R173). -/
theorem State.Inv.exhaust {s : State} (h : s.Inv) (he : s.exh = true) (c : Cause) (r0 r1 : Word) :
    (({ s with toEngine := s.toEngine.exhaust } : State).finish c r0 r1).Inv :=
  ⟨h.memWf, h.memBound, h.cfg, h.regs.exhaust he, h.tuning, h.unconfigured, by simp⟩

/-- The job goes on in another stage, its engine untouched. -/
theorem State.Inv.enterStage {s : State} {j : Job} (h : s.Inv) (hj : s.phase = .running j) {stage : Stage}
    (hr : ∀ r, stage = .region r → r.Ok { j with stage := stage } { s with phase := .running { j with stage := stage } }) :
    ({ s with phase := .running { j with stage := stage } } : State).Inv := by
  have hok := h.job j hj
  exact h.of_running hj rfl ⟨rfl, rfl⟩ ⟨rfl, rfl⟩ rfl h.memWf h.memBound h.regs
    (hok.advance ⟨rfl, rfl, rfl, rfl, rfl⟩ ⟨rfl, rfl, rfl, rfl⟩ hok.reached hr)

/-- What eligibility and the wrap-around pre-check say (R193, R195). -/
theorem State.regionRuns_iff {s : State} {rest : Nat} :
    s.regionRuns rest = true ↔ s.parEn = true ∧ s.exh = false ∧ 64 * s.bpc.toNat < rest ∧
      s.ctr.toNat + rest / (64 * s.bpc.toNat) * s.bpc.toNat ≤ 2 ^ 64 - 1 := by
  simp [State.regionRuns, and_assoc]

/-- A region that has just started is in order (R192 to R197). -/
theorem State.Inv.newRegion_ok {s : State} {j : Job} (h : s.Inv) (hn : s.next = 64) (hi : j.i ≤ j.len)
    (hruns : s.regionRuns (j.len - j.i) = true) :
    (s.newRegion j.i (j.len - j.i)).Ok j s := by
  obtain ⟨_, he, hlt, hw⟩ := State.regionRuns_iff.mp hruns
  have hb := BitVec.toNat_pos_of_ne_zero h.tuning.1
  have hfit := Nat.div_mul_le_self (j.len - j.i) (64 * s.bpc.toNat)
  exact {
    next := hn
    exh := he
    base := rfl
    chunks := Nat.div_pos (by omega) (by omega)
    noWrap := hw
    off := rfl
    inside := by simp only [State.newRegion]; omega
    slots := by simp [State.newRegion]
    partition := by simp [State.newRegion]
    workers := by simp [State.newRegion] }

end Sys2Proof.Machine
end

section
/-! SUPPORT. The workers' moves keep the region in order, and with that every step keeps the invariant (O54). -/

namespace Sys2Proof.Machine

/-! ### The chunks of a region -/

theorem Region.Ok.lt_of_pending {r : Region} {j : Job} {s : State} (h : r.Ok j s) {k : Nat} (hk : k ∈ r.pending) :
    k < r.n :=
  List.mem_range.mp (h.partition.mem_iff.mp (List.mem_append_left _ hk))

theorem Region.Ok.lt_of_running {r : Region} {j : Job} {s : State} (h : r.Ok j s) {w : Worker} (hw : w ∈ r.running) :
    w.k < r.n :=
  List.mem_range.mp (h.partition.mem_iff.mp
    (List.mem_append_right _ (List.mem_append_left _ (List.mem_map_of_mem hw))))

/-- No two running workers have the same chunk (R197). -/
theorem Region.Ok.running_nodup {r : Region} {j : Job} {s : State} (h : r.Ok j s) : (r.running.map (·.k)).Nodup :=
  (h.partition.nodup_iff.mpr List.nodup_range).of_append_right.of_append_left

/-- The blocks of chunk `k` end within the region. -/
theorem chunk_end_le {k n bpc : Nat} (hk : k < n) : k * bpc + bpc ≤ n * bpc := by
  have := Nat.mul_le_mul_right bpc (Nat.succ_le_of_lt hk)
  rwa [Nat.succ_mul] at this

/-! ### Workers -/

/-- The worker of an admitted chunk is in order (R200): its counter does not wrap (R195). -/
theorem Region.Ok.newWorker_ok {r : Region} {j : Job} {s : State} (h : r.Ok j s) {k : Nat} (hk : k < r.n) :
    (newWorker s.toEngine r.base s.bpc.toNat k).Ok s.toEngine r.base.toNat s.bpc.toNat where
  const := rfl
  key := rfl
  nonce := rfl
  rounds := rfl
  left := Nat.le_refl _
  ctr := by
    have hend := chunk_end_le (bpc := s.bpc.toNat) hk
    have hw := h.noWrap
    simp only [newWorker, Nat.sub_self, Nat.add_zero, BitVec.toNat_ofNat]
    exact Nat.mod_eq_of_lt (by omega)

/-- A worker is in order after one more block (R200): the region ends below block 2^64 − 1, so its counter does not wrap. -/
theorem Worker.Ok.advance {w : Worker} {e : Engine} {base bpc n : Nat} (h : w.Ok e base bpc) (hl : 0 < w.left)
    (hk : w.k < n) (hn : base + n * bpc ≤ 2 ^ 64 - 1) : w.advance.Ok e base bpc where
  const := h.const
  key := h.key
  nonce := h.nonce
  rounds := h.rounds
  left := Nat.le_trans (Nat.sub_le _ _) h.left
  ctr := by
    have hend := chunk_end_le (bpc := bpc) hk
    have hleft := h.left
    have hctr := h.ctr
    have hone : (1 : BlockIndex).toNat = 1 := rfl
    simp only [Worker.advance, BitVec.toNat_add, hone]
    omega

/-- A block step writes within the command's destination (R201). -/
theorem Region.Ok.block_inside {r : Region} {j : Job} {s : State} (h : r.Ok j s) {w : Worker} (hw : w ∈ r.running)
    (hl : 0 < w.left) : w.offset r.off s.bpc.toNat + 64 ≤ j.len := by
  have hend := chunk_end_le (bpc := s.bpc.toNat) (h.lt_of_running hw)
  have hleft := (h.workers w hw).left
  have hinside := h.inside
  have hmul : r.n * (64 * s.bpc.toNat) = r.n * s.bpc.toNat * 64 := by ring
  simp only [Worker.offset]
  omega

/-! ### The moves -/

/-- The admission of a pending chunk takes a slot (R197). -/
theorem Region.Ok.admission {r : Region} {j : Job} {s : State} (h : r.Ok j s) {k : Nat} (hs : 0 < r.sem)
    (hk : k ∈ r.pending) : (r.admission s.toEngine s.bpc.toNat k).Ok j s where
  next := h.next
  exh := h.exh
  base := h.base
  chunks := h.chunks
  noWrap := h.noWrap
  off := h.off
  inside := h.inside
  slots := by
    have := h.slots
    simp only [Region.admission, List.length_append, List.length_singleton]
    omega
  partition := by
    have hmoved : (r.pending ++ (r.running.map (·.k) ++ r.done)).Perm
        (r.pending.erase k ++ ((r.running.map (·.k) ++ [k]) ++ r.done)) := by
      refine ((List.perm_cons_erase hk).append_right _).trans ?_
      simpa using (List.perm_middle (l₁ := r.pending.erase k ++ r.running.map (·.k))).symm
    simpa [Region.admission, newWorker] using hmoved.symm.trans h.partition
  workers := fun w hw => by
    rcases List.mem_append.mp hw with hw | hw
    · exact h.workers w hw
    · rw [List.mem_singleton.mp hw]
      exact h.newWorker_ok (h.lt_of_pending hk)

/-- The release of a worker gives its slot back (R199). -/
theorem Region.Ok.release {r : Region} {j : Job} {s : State} (h : r.Ok j s) {w : Worker} (hw : w ∈ r.running) :
    (r.release w.k).Ok j s := by
  have hmem : w.k ∈ r.running.map (·.k) := List.mem_map_of_mem hw
  have hleft : (r.running.filter (·.k ≠ w.k)).map (·.k) = (r.running.map (·.k)).erase w.k := by
    rw [h.running_nodup.erase_eq_filter, List.filter_map]
    exact congrArg _ (List.filter_congr fun v _ => by simp [bne, Bool.beq_eq_decide_eq])
  exact {
    next := h.next
    exh := h.exh
    base := h.base
    chunks := h.chunks
    noWrap := h.noWrap
    off := h.off
    inside := h.inside
    slots := by
      have hlen := congrArg List.length hleft
      have hpos := List.length_pos_of_mem hmem
      have := h.slots
      rw [List.length_map, List.length_erase_of_mem hmem] at hlen
      rw [List.length_map] at hlen hpos
      simp only [Region.release]
      omega
    partition := by
      have hmoved : (r.running.map (·.k) ++ r.done).Perm ((r.running.map (·.k)).erase w.k ++ (r.done ++ [w.k])) := by
        refine ((List.perm_cons_erase hmem).append_right _).trans ?_
        simpa using (List.perm_append_singleton w.k ((r.running.map (·.k)).erase w.k ++ r.done)).symm
      simp only [Region.release, hleft]
      exact (hmoved.symm.append_left _).trans h.partition
    workers := fun v hv => h.workers v (List.mem_of_mem_filter hv) }

/-- A block step advances one worker (R200). -/
theorem Region.Ok.advance {r : Region} {j : Job} {s : State} (h : r.Ok j s) {w : Worker} (hw : w ∈ r.running)
    (hl : 0 < w.left) : (r.advance w.k).Ok j s := by
  have hkeys : (r.advance w.k).running.map (·.k) = r.running.map (·.k) := by
    simp only [Region.advance, List.map_map]
    refine List.map_congr_left fun v _ => ?_
    simp only [Function.comp]
    split <;> rfl
  exact {
    next := h.next
    exh := h.exh
    base := h.base
    chunks := h.chunks
    noWrap := h.noWrap
    off := h.off
    inside := h.inside
    slots := by simpa [Region.advance] using h.slots
    partition := by rw [hkeys]; exact h.partition
    workers := fun v hv => by
      obtain ⟨u, hu, rfl⟩ := List.mem_map.mp hv
      split
      next huw =>
        obtain rfl : u = w := List.inj_on_of_nodup_map h.running_nodup hu hw huw
        exact (h.workers u hu).advance hl (h.lt_of_running hu) h.noWrap
      next => exact h.workers u hu }

/-- The region of a block step's worker: the first running worker of its chunk is that worker. -/
theorem Region.Ok.find_running {r : Region} {j : Job} {s : State} (h : r.Ok j s) {w : Worker} (hw : w ∈ r.running) :
    r.running.find? (·.k = w.k) = some w := by
  cases hf : r.running.find? (·.k = w.k) with
  | none => simpa using List.find?_eq_none.mp hf w hw
  | some v =>
    have hv : v.k = w.k := by simpa using List.find?_some hf
    rw [List.inj_on_of_nodup_map h.running_nodup (List.mem_of_find?_eq_some hf) hw hv]

/-- A step that replaces the region, and may have written memory, keeps the invariant. -/
theorem State.Inv.withRegion {s : State} {j : Job} (h : s.Inv) (hj : s.phase = .running j) {r : Region} (hr : r.Ok j s)
    {m : Memory} (hwf : m.wf) (hb : ∀ c ∈ m, c.1 < s.cfg.memSize) :
    (({ s with mem := m } : State).withRegion j r).Inv := by
  have hok := h.job j hj
  refine h.of_running hj (State.withRegion_phase _ j r) ⟨rfl, rfl⟩ ⟨rfl, rfl⟩ rfl hwf hb
    ⟨h.regs.rounds, h.regs.termExh, h.regs.exhCtr⟩ ?_
  refine hok.advance ⟨rfl, rfl, rfl, rfl, rfl⟩ ⟨rfl, rfl, rfl, rfl⟩ hok.reached fun q hq => ?_
  cases hq
  exact hr.congr ⟨rfl, rfl⟩ ⟨rfl, rfl, rfl, rfl⟩ ⟨rfl, rfl, rfl⟩ ⟨rfl, rfl⟩

/-- Every enabled move of the workers keeps the invariant (R197 to R201). -/
theorem State.Inv.workerMove {s : State} {j : Job} (h : s.Inv) (hj : s.phase = .running j) {r : Region}
    (hstage : j.stage = .region r) {m : Move} (hm : m ∈ r.moves s.cfg.numLanes) : (s.workerMove j r m).Inv := by
  have hok := h.job j hj
  have hr := hok.region r hstage
  rcases Region.mem_moves.mp hm with ⟨hs, k, hk, rfl⟩ | ⟨w, hw, hl, lane, _, rfl⟩ | ⟨w, hw, _, rfl⟩
  · exact h.withRegion hj (hr.admission hs hk) h.memWf h.memBound
  · have hinside := hr.block_inside hw hl
    have hdst : j.dst + j.len ≤ s.cfg.memSize := (inMemory_iff.mp hok.dst).resolve_left (by omega)
    simp only [State.workerMove, hr.find_running hw]
    exact h.withRegion hj (hr.advance hw hl) (Memory.xorBlock_wf h.memWf ..)
      (Memory.xorBlock_bound h.memBound (by omega))
  · exact h.withRegion hj (hr.release hw) h.memWf h.memBound

/-- The reposition after the barrier leaves the region's bytes behind (R204). -/
theorem State.Inv.reposition {s : State} {j : Job} (h : s.Inv) (hj : s.phase = .running j) {r : Region}
    (hstage : j.stage = .region r) :
    ({ s with
      toEngine := s.toEngine.reposition r.base (r.n * s.bpc.toNat)
      phase := .running { j with i := j.i + r.n * (64 * s.bpc.toNat), stage := .rest } } : State).Inv := by
  have hok := h.job j hj
  have hr := hok.region r hstage
  have hinside := hr.inside
  rw [hr.off] at hinside
  exact h.of_running hj rfl ⟨rfl, rfl⟩ ⟨rfl, rfl⟩ rfl h.memWf h.memBound (h.regs.reposition hr.exh ..)
    (hok.advance ⟨rfl, rfl, rfl, rfl, rfl⟩ ⟨rfl, rfl, rfl, rfl⟩ hinside (by simp))

/-! ### Every step -/

theorem JobStep.inv {s t : State} {j : Job} (ht : JobStep s j t) (h : s.Inv) (hj : s.phase = .running j) : t.Inv := by
  cases ht with
  | byte hstage hi _ => exact h.byteStep hj hstage hi
  | enterRegion _ hn hruns =>
    exact h.withRegion hj (h.newRegion_ok hn (h.job j hj).reached hruns) h.memWf h.memBound
  | enterRest _ _ => exact h.enterStage hj (by simp)
  | reposition r hstage _ => exact h.reposition hj hstage
  | move r m hstage _ hm => exact h.workerMove hj hstage hm
  | wait _ _ _ _ => exact h
  | complete _ _ => exact h.finish ..
  | exhaust _ _ _ he => exact h.exhaust he ..
  | generate hstage _ _ he => exact h.generateStep hj (by simp [hstage]) he

theorem CoreStep.inv {s t : State} (ht : CoreStep s t) (h : s.Inv) : t.Inv := by
  cases ht with
  | idle _ => exact h
  | dropped _ _ _ => exact h.dropCommand
  | rejected _ _ _ _ => exact h.finish ..
  | completed _ _ _ _ _ hc => exact h.effectOf hc
  | begun _ _ _ _ _ hj =>
    refine h.to_phase rfl ⟨rfl, rfl⟩ ⟨rfl, rfl⟩ rfl fun k hk => ?_
    cases hk
    have hok := h.jobOf_ok hj
    exact hok.advance ⟨rfl, rfl, rfl, rfl, rfl⟩ ⟨rfl, rfl, rfl, rfl⟩ hok.reached fun r hr =>
      (hok.region r hr).congr ⟨rfl, rfl⟩ ⟨rfl, rfl, rfl, rfl⟩ ⟨rfl, rfl, rfl⟩ ⟨rfl, rfl⟩
  | job j _ hj ht => exact ht.inv h hj

theorem HostStep.inv {s t : State} (ht : HostStep s t) (h : s.Inv) : t.Inv := by
  cases ht with
  | read v n => exact h.congr rfl ⟨rfl, rfl, rfl⟩ ⟨rfl, rfl⟩ rfl rfl
  | overrun _ => exact h.congr rfl ⟨rfl, rfl, rfl⟩ ⟨rfl, rfl⟩ rfl rfl
  | accept _ w => exact h.to_phase rfl ⟨rfl, rfl⟩ ⟨rfl, rfl⟩ rfl (by simp)
  | argument _ a0 a1 a2 a3 => exact h.congr rfl ⟨rfl, rfl, rfl⟩ ⟨rfl, rfl⟩ rfl rfl
  | ignored => exact h
  | writeByte a b ha =>
    exact {
      memWf := Memory.write_wf h.memWf a b
      memBound := Memory.write_bound b h.memBound ha
      cfg := h.cfg
      regs := ⟨h.regs.rounds, h.regs.termExh, h.regs.exhCtr⟩
      tuning := h.tuning
      unconfigured := h.unconfigured
      job := fun j hj => by
        have hok := h.job j hj
        exact hok.advance ⟨rfl, rfl, rfl, rfl, rfl⟩ ⟨rfl, rfl, rfl, rfl⟩ hok.reached fun r hr =>
          (hok.region r hr).congr ⟨rfl, rfl⟩ ⟨rfl, rfl, rfl, rfl⟩ ⟨rfl, rfl, rfl⟩ ⟨rfl, rfl⟩ }

theorem StepEffect.inv {s t : State} (ht : StepEffect s t) (h : s.Inv) : t.Inv := by
  cases ht with
  | core _ ht => exact ht.inv h
  | host _ ht => exact ht.inv h
  | sync => exact h.congr rfl ⟨rfl, rfl, rfl⟩ ⟨rfl, rfl⟩ rfl rfl

/-- Settles O54: the reset input starts anew, and every other step is one of the cases of `StepEffect`. -/
theorem everyStepKeepsTheInvariant : Obligations.EveryStepKeepsTheInvariant := by
  intro s t h hs
  rcases step_effect hs with ⟨_, rfl⟩ | ht
  · exact h.nextTurn.resetCore
  · exact ht.inv h.nextTurn

/-- Settles O53: the memory is empty and no job runs. -/
theorem resetMeetsTheInvariant : Obligations.ResetMeetsTheInvariant := State.reset_inv

end Sys2Proof.Machine
end

section
/-! SUPPORT. The host's register window: one equation per kind of register access, the readable registers as numbers, and
what every step leaves unchanged of them. It settles O8, O9, O12, O13, O14. -/

namespace Sys2Proof.Machine

/-! ### One register access -/

theorem registerAccessOk_eq_false_iff {offset width : Nat} :
    registerAccessOk offset width = false ↔ width ≠ 32 ∨ offset % 4 ≠ 0 ∨ 0x40 ≤ offset := by
  simp only [registerAccessOk, Bool.and_eq_false_iff, decide_eq_false_iff_not, not_lt]
  tauto

/-- CMD and A0 .. A3 are in the window and host-writable (R40). -/
theorem hostWritable_offsets : ∀ offset ∈ [0x00, 0x04, 0x08, 0x0C, 0x10],
    registerAccessOk offset 32 = true ∧ hostWritable offset = true := by decide

/-- RES0, RES1, BPC, MAXW and the unmapped offsets are in the window and not host-writable (R44, R46, R47). -/
theorem ignored_offsets : ∀ offset ∈ [0x18, 0x1C, 0x24, 0x28, 0x2C, 0x30, 0x34, 0x38, 0x3C],
    registerAccessOk offset 32 = true ∧ hostWritable offset = false := by decide

/-- A 32-bit write in the window is carried out, in the state whose agenda has lost the turn taken. -/
theorem step_writeReg {s : State} {offset : Nat} {v : Word} {rest : List Turn}
    (h : s.agenda = .host (.writeReg offset 32 v) :: rest) (ho : registerAccessOk offset 32 = true) :
    step s = .next (({ s with agenda := rest } : State).writeRegister offset v) := by
  simp only [step_of_turn h, State.turn, State.hostAccess, ho, if_true]

/-- A 32-bit read in the window leaves the register's value in `rdata`. -/
theorem step_readReg {s : State} {offset : Nat} {rest : List Turn} (h : s.agenda = .host (.readReg offset 32) :: rest)
    (ho : registerAccessOk offset 32 = true) :
    step s = .next { s with agenda := rest, rdata := s.readRegister offset } := by
  simp only [step_of_turn h, State.turn, State.hostAccess, ho, if_true]
  rfl

/-- A write at an offset that is not host-writable takes the turn and nothing else (R43 to R47). -/
theorem step_writeReg_ignored {s : State} {offset : Nat} {v : Word} {rest : List Turn}
    (h : s.agenda = .host (.writeReg offset 32 v) :: rest) (ho : registerAccessOk offset 32 = true)
    (hw : hostWritable offset = false) : step s = .next { s with agenda := rest } := by
  rw [step_writeReg h ho, State.writeRegister_ignored hw]

/-- While BUSY = 1 a write at a host-writable offset sets OVR and does nothing else (R48). -/
theorem step_writeReg_overrun {s : State} {offset : Nat} {v : Word} {rest : List Turn} (hp : s.phase ≠ .idle)
    (h : s.agenda = .host (.writeReg offset 32 v) :: rest) (ho : registerAccessOk offset 32 = true)
    (hw : hostWritable offset = true) : step s = .next { s with ovr := true, agenda := rest } := by
  rw [step_writeReg h ho, State.writeRegister_of_busy (State.busy_eq_true_iff.mpr (by exact hp)) hw]

/-! ### The fields of STATUS and CFG -/

/-- A concatenation as a number. -/
theorem toNat_append_eq {n m : Nat} (x : BitVec n) (y : BitVec m) : (x ++ y).toNat = x.toNat * 2 ^ m + y.toNat := by
  rw [BitVec.toNat_append, ← Nat.shiftLeft_add_eq_or_of_lt y.isLt, Nat.shiftLeft_eq]

/-- LSTATE as a number (R43, R54). -/
theorem lifecycleOf_code_toNat (keyset ivset exh gen : Bool) :
    (lifecycleOf keyset ivset exh gen).code.toNat =
      if keyset = false ∨ ivset = false then 0 else if exh then 3 else if gen then 2 else 1 := by
  revert keyset ivset exh gen
  decide

theorem State.statusWord_toNat (s : State) :
    s.statusWord.toNat = s.busy.toNat + 2 * s.fatal.toNat + 4 * s.viewEngine.exh.toNat + 8 * s.viewEngine.term.toNat
      + 16 * (lifecycleOf s.keyset s.ivset s.viewEngine.exh s.viewEngine.gen).code.toNat
      + 64 * s.ovr.toNat + 256 * s.cause.code.toNat := by
  simp only [State.statusWord, toNat_append_eq, BitVec.toNat_ofBool, BitVec.ofNat_eq_ofNat, BitVec.toNat_zero]
  omega

theorem State.cfgWord_toNat (s : State) :
    s.cfgWord.toNat = s.parEn.toNat + 2 * s.key256.toNat + 4 * s.keyset.toNat + 8 * s.ivset.toNat
      + 256 * s.viewEngine.rounds.toNat := by
  simp only [State.cfgWord, toNat_append_eq, BitVec.toNat_ofBool, BitVec.ofNat_eq_ofNat, BitVec.toNat_zero]
  omega

/-- BUSY stands in STATUS[0]. -/
theorem State.statusWord_bit0 (s : State) : s.statusWord.getLsbD 0 = s.busy := by
  simp only [State.statusWord, BitVec.getLsbD_append]
  simp

/-- OVR stands in STATUS[6]. -/
theorem State.statusWord_bit6 (s : State) : s.statusWord.getLsbD 6 = s.ovr := by
  simp only [State.statusWord, BitVec.getLsbD_append]
  simp

theorem State.viewEngine_of_running {s : State} {j : Job} (h : s.phase = .running j) : s.viewEngine = j.start := by
  simp [State.viewEngine, h]

/-- Unless a job runs, the views show the engine registers. -/
theorem State.viewEngine_of_not_running {s : State} (h : ∀ j, s.phase ≠ .running j) : s.viewEngine = s.toEngine := by
  unfold State.viewEngine
  split
  · rfl
  · rfl
  next j hj => exact absurd hj (h j)

/-! ### The statements -/

/-- Settles O8: the write is carried out because the core is idle. -/
theorem cmdWriteLatchesTheWordAndRaisesBusy : Obligations.CmdWriteLatchesTheWordAndRaisesBusy := by
  intro s v rest hp h
  refine ⟨_, ?_, rfl, rfl, rfl⟩
  rw [step_writeReg h (by decide), State.writeRegister_of_idle (by exact hp)]
  rfl

/-- Settles O9: CMD and A0 .. A3 are the host-writable offsets. -/
theorem hostWriteWhileBusyIsDroppedAndSetsOvr : Obligations.HostWriteWhileBusyIsDroppedAndSetsOvr := by
  intro s offset v rest hp ho h
  obtain ⟨hok, hw⟩ := hostWritable_offsets offset ho
  exact ⟨step_writeReg_overrun hp h hok hw, State.statusWord_bit6 _⟩

/-- Settles O12: the sixteen offsets one by one. -/
theorem registerReadsFollowTheMap : Obligations.RegisterReadsFollowTheMap := by
  refine ⟨fun s offset width v rest h hbad => ?_, fun s offset width rest h => ⟨?_, fun hbad => ?_⟩⟩
  · simp [step_of_turn h, State.turn, State.hostAccess, registerAccessOk_eq_false_iff.mpr hbad]
  · rintro k hk rfl rfl
    have hok : registerAccessOk (4 * k) 32 = true := by
      have hlt : 4 * k < 0x40 := by omega
      simp [registerAccessOk, hlt]
    rw [step_readReg h hok]
    interval_cases k <;> rfl
  · simp [step_of_turn h, State.turn, State.hostAccess, registerAccessOk_eq_false_iff.mpr hbad]

/-- Settles O13: the view registers by phase, STATUS as a sum of its fields, and the ignored write. -/
theorem statusFieldsStandWhereR43Says : Obligations.StatusFieldsStandWhereR43Says := by
  refine ⟨fun s => ⟨State.viewEngine_of_not_running, fun j => State.viewEngine_of_running⟩, fun s => ?_, by decide,
    fun s v rest h => step_writeReg_ignored h (by decide) (by decide)⟩
  rw [State.statusWord_toNat, lifecycleOf_code_toNat]

/-- Settles O14: the view registers by phase, CFG as a sum of its fields, and the ignored write. -/
theorem cfgFieldsStandWhereR45Says : Obligations.CfgFieldsStandWhereR45Says :=
  ⟨fun _ => ⟨fun h => by rw [State.viewEngine_of_not_running h], fun _ h => by rw [State.viewEngine_of_running h]⟩,
    State.cfgWord_toNat, by decide, fun _ _ _ h => step_writeReg_ignored h (by decide) (by decide)⟩

end Sys2Proof.Machine
end

section
/-! SUPPORT. What every step leaves unchanged of the host's registers and flags, and the host's accesses to buffer memory.
It settles O5, O10, O11, O15, O16, O19 and O50. -/

namespace Sys2Proof.Machine

/-! ### Frames of the core's moves -/

/-- A step of a running job writes the engine, the phase and what `finish` writes, and nothing else. -/
theorem JobStep.frame {s t : State} {j : Job} (ht : JobStep s j t) :
    t = { s with toEngine := t.toEngine, phase := t.phase, cause := t.cause, res0 := t.res0, res1 := t.res1,
                 fatal := t.fatal } := by
  cases ht with
  | move r m _ _ _ =>
    cases m with
    | admission k => rfl
    | release k => rfl
    | block k lane =>
      simp only [State.workerMove]
      split <;> rfl
  | _ => rfl

/-- A job that goes on shows the host the same registers: it writes no result, and its views are of the same start (R48). -/
theorem JobStep.goes_on {s t : State} {j : Job} (ht : JobStep s j t) (hj : s.phase = .running j) :
    t.phase = .idle ∨
      (t = { s with toEngine := t.toEngine, phase := t.phase } ∧ ∃ k, t.phase = .running k ∧ k.start = j.start) := by
  cases ht with
  | complete _ _ => exact .inl rfl
  | exhaust _ _ _ _ => exact .inl rfl
  | wait _ _ _ _ => exact .inr ⟨rfl, j, hj, rfl⟩
  | generate _ _ _ _ => exact .inr ⟨rfl, j, hj, rfl⟩
  | move r m _ _ _ =>
    cases m with
    | admission k => exact .inr ⟨rfl, _, rfl, rfl⟩
    | release k => exact .inr ⟨rfl, _, rfl, rfl⟩
    | block k lane =>
      simp only [State.workerMove]
      split
      · exact .inr ⟨rfl, j, hj, rfl⟩
      · exact .inr ⟨rfl, _, rfl, rfl⟩
  | _ => exact .inr ⟨rfl, _, rfl, rfl⟩

/-- No command writes A0 .. A3 (R42). -/
theorem State.effectOf_args (s : State) (i : Instr) :
    (s.effectOf i).a0 = s.a0 ∧ (s.effectOf i).a1 = s.a1 ∧ (s.effectOf i).a2 = s.a2 ∧ (s.effectOf i).a3 = s.a3 := by
  cases i <;> exact ⟨rfl, rfl, rfl, rfl⟩

theorem CoreStep.args {s t : State} (ht : CoreStep s t) : t.a0 = s.a0 ∧ t.a1 = s.a1 ∧ t.a2 = s.a2 ∧ t.a3 = s.a3 := by
  cases ht with
  | completed w i _ _ _ _ => exact s.effectOf_args i
  | job j _ _ ht =>
    exact ⟨(congrArg State.a0 ht.frame :), (congrArg State.a1 ht.frame :), (congrArg State.a2 ht.frame :), (congrArg State.a3 ht.frame :)⟩
  | _ => exact ⟨rfl, rfl, rfl, rfl⟩

/-- A command sets KEYSET and IVSET or leaves them (R131 to R133). -/
theorem State.effectOf_keyset (s : State) (i : Instr) :
    (s.keyset = true → (s.effectOf i).keyset = true) ∧ (s.ivset = true → (s.effectOf i).ivset = true) := by
  cases i with
  | init => exact ⟨fun _ => rfl, fun _ => rfl⟩
  | keysetup => exact ⟨fun _ => rfl, id⟩
  | ivsetup => exact ⟨id, fun _ => rfl⟩
  | _ => exact ⟨id, id⟩

theorem CoreStep.keyset {s t : State} (ht : CoreStep s t) :
    (s.keyset = true → t.keyset = true) ∧ (s.ivset = true → t.ivset = true) := by
  cases ht with
  | completed w i _ _ _ _ => exact s.effectOf_keyset i
  | job j _ _ ht =>
    exact ⟨fun h => (congrArg State.keyset ht.frame).trans h, fun h => (congrArg State.ivset ht.frame).trans h⟩
  | _ => exact ⟨id, id⟩

theorem StepEffect.keyset {s t : State} (ht : StepEffect s t) :
    (s.keyset = true → t.keyset = true) ∧ (s.ivset = true → t.ivset = true) := by
  cases ht with
  | core _ ht => exact ht.keyset
  | host _ ht => cases ht <;> exact ⟨id, id⟩
  | sync => exact ⟨id, id⟩

/-- The tuning registers are the same in both states. -/
def State.sameTuning (s t : State) : Prop := t.bpc = s.bpc ∧ t.maxw = s.maxw ∧ t.parEn = s.parEn

/-- No command but TUNE writes the tuning registers (R47, R137). -/
theorem State.effectOf_sameTuning (s : State) {i : Instr} (hi : ∀ f, i ≠ .tune f) : s.sameTuning (s.effectOf i) := by
  cases i with
  | tune f => exact absurd rfl (hi f)
  | _ => exact ⟨rfl, rfl, rfl⟩

/-- A move of the core leaves the tuning registers alone, or carries out a TUNE. -/
theorem CoreStep.tuning {s t : State} (ht : CoreStep s t) :
    s.sameTuning t ∨
      ∃ w f, s.phase = .accepted w ∧ decode w = .ok (.tune f) ∧ s.fatal = false ∧ t = s.effectOf (.tune f) := by
  cases ht with
  | completed w i hp hd hf _ =>
    by_cases hi : ∃ f, i = .tune f
    · obtain ⟨f, rfl⟩ := hi
      exact .inr ⟨w, f, hp, hd, hf.resolve_left (by simp), rfl⟩
    · exact .inl (s.effectOf_sameTuning fun f h => hi ⟨f, h⟩)
  | job j _ _ ht =>
    exact .inl ⟨(congrArg State.bpc ht.frame :), (congrArg State.maxw ht.frame :), (congrArg State.parEn ht.frame :)⟩
  | _ => exact .inl ⟨rfl, rfl, rfl⟩

theorem StepEffect.tuning {s t : State} (ht : StepEffect s t) :
    s.sameTuning t ∨
      ∃ w f, s.phase = .accepted w ∧ decode w = .ok (.tune f) ∧ s.fatal = false ∧ t = s.effectOf (.tune f) := by
  cases ht with
  | core _ ht => exact ht.tuning
  | host _ ht => cases ht <;> exact .inl ⟨rfl, rfl, rfl⟩
  | sync => exact .inl ⟨rfl, rfl, rfl⟩

/-! ### What the host sees while BUSY = 1 -/

/-- `t` shows the host what `s` shows, but for OVR. -/
structure State.SameViews (s t : State) : Prop where
  view : t.viewEngine.exh = s.viewEngine.exh ∧ t.viewEngine.term = s.viewEngine.term ∧
    t.viewEngine.gen = s.viewEngine.gen ∧ t.viewEngine.rounds = s.viewEngine.rounds
  flags : t.keyset = s.keyset ∧ t.ivset = s.ivset ∧ t.key256 = s.key256 ∧ t.fatal = s.fatal ∧ t.parEn = s.parEn
  results : t.cause = s.cause ∧ t.res0 = s.res0 ∧ t.res1 = s.res1
  tuning : t.bpc = s.bpc ∧ t.maxw = s.maxw
  args : t.a0 = s.a0 ∧ t.a1 = s.a1 ∧ t.a2 = s.a2 ∧ t.a3 = s.a3
  busy : t.busy = s.busy

/-- A state that differs only in the engine, the phase, OVR and what no register shows. -/
theorem State.SameViews.of_view {s t : State}
    (ht : t = { s with toEngine := t.toEngine, phase := t.phase, ovr := t.ovr, past := t.past, rdata := t.rdata,
                       draws := t.draws })
    (hview : t.viewEngine.exh = s.viewEngine.exh ∧ t.viewEngine.term = s.viewEngine.term ∧
      t.viewEngine.gen = s.viewEngine.gen ∧ t.viewEngine.rounds = s.viewEngine.rounds)
    (hb : t.busy = s.busy) : s.SameViews t := by
  rw [ht] at hview hb ⊢
  exact ⟨hview, ⟨rfl, rfl, rfl, rfl, rfl⟩, ⟨rfl, rfl, rfl⟩, ⟨rfl, rfl⟩, ⟨rfl, rfl, rfl, rfl⟩, hb⟩

/-- OVR reaches bit 6 of STATUS and no other. -/
theorem State.statusWord_bit_of_ne (s : State) (b : Bool) {i : Nat} (hi : i ≠ 6) :
    ({ s with ovr := b } : State).statusWord.getLsbD i = s.statusWord.getLsbD i := by
  simp only [State.statusWord, BitVec.getLsbD_append]
  iterate 5
    split
    · rfl
  have h6 : ¬ i - 1 - 1 - 1 - 1 - 2 < 1 := by omega
  simp only [h6, if_false]

/-- STATUS with bit 6 masked does not depend on OVR. -/
theorem State.statusWord_mask_ovr (s : State) (b : Bool) :
    ({ s with ovr := b } : State).statusWord ||| 0x40 = s.statusWord ||| 0x40 := by
  refine BitVec.eq_of_getLsbD_eq fun i _ => ?_
  rw [BitVec.getLsbD_or, BitVec.getLsbD_or]
  by_cases hi : i = 6
  · have hmask : (0x40 : Word).getLsbD 6 = true := by decide
    rw [hi, hmask, Bool.or_true, Bool.or_true]
  · rw [s.statusWord_bit_of_ne b hi]

theorem State.SameViews.statusWord {s t : State} (h : s.SameViews t) : t.statusWord ||| 0x40 = s.statusWord ||| 0x40 := by
  obtain ⟨⟨hexh, hterm, hgen, _⟩, ⟨hk, hv, _, hf, _⟩, ⟨hc, _, _⟩, _, _, hb⟩ := h
  have : t.statusWord = ({ s with ovr := t.ovr } : State).statusWord := by
    have hview : ({ s with ovr := t.ovr } : State).viewEngine = s.viewEngine := rfl
    have hbusy : ({ s with ovr := t.ovr } : State).busy = s.busy := rfl
    simp only [State.statusWord, hview, hbusy, hexh, hterm, hgen, hk, hv, hf, hc, hb]
  rw [this, State.statusWord_mask_ovr]

/-- A register reads alike in two states that agree on what it shows. -/
theorem State.readRegister_congr {s t : State} {offset : Nat} (hstatus : offset = 0x14 → t.statusWord = s.statusWord)
    (hcfg : t.cfgWord = s.cfgWord) (ha0 : offset = 0x04 → t.a0 = s.a0) (ha1 : offset = 0x08 → t.a1 = s.a1)
    (ha2 : offset = 0x0C → t.a2 = s.a2) (ha3 : offset = 0x10 → t.a3 = s.a3) (hres : t.res0 = s.res0 ∧ t.res1 = s.res1)
    (htune : t.bpc = s.bpc ∧ t.maxw = s.maxw) : t.readRegister offset = s.readRegister offset := by
  obtain ⟨hres0, hres1⟩ := hres
  obtain ⟨hbpc, hmaxw⟩ := htune
  unfold State.readRegister
  split
  · exact ha0 rfl
  · exact ha1 rfl
  · exact ha2 rfl
  · exact ha3 rfl
  · exact hstatus rfl
  · exact hres0
  · exact hres1
  · exact hcfg
  · exact hbpc
  · exact hmaxw
  · rfl

theorem State.SameViews.readRegister {s t : State} (h : s.SameViews t) {offset : Nat} (ho : offset ≠ 0x14) :
    t.readRegister offset = s.readRegister offset := by
  obtain ⟨⟨_, _, _, hr⟩, ⟨hk, hv, hk2, _, hp⟩, ⟨_, hres⟩, htune, ⟨ha0, ha1, ha2, ha3⟩, _⟩ := h
  have hcfg : t.cfgWord = s.cfgWord := by simp only [State.cfgWord, hr, hk, hv, hk2, hp]
  exact State.readRegister_congr (fun h => absurd h ho) hcfg (fun _ => ha0) (fun _ => ha1) (fun _ => ha2) (fun _ => ha3)
    hres htune

/-- The job of a command starts with the engine registers (R48). -/
theorem State.jobOf_start {s : State} {i : Instr} {j : Job} (h : s.jobOf i = some j) : j.start = s.toEngine := by
  cases i with
  | xor =>
    simp only [State.jobOf] at h
    split at h <;> cases h
    rfl
  | ks =>
    simp only [State.jobOf] at h
    split at h <;> cases h
    rfl
  | _ => cases h

/-- A job that goes on shows the host nothing new. -/
theorem JobStep.sameViews {s t : State} {j : Job} (ht : JobStep s j t) (hj : s.phase = .running j)
    (hb : t.busy = true) : s.SameViews t := by
  rcases ht.goes_on hj with hp | ⟨he, k, hk, hstart⟩
  · exact absurd hp (State.busy_eq_true_iff.mp hb)
  · have hview : t.viewEngine = s.viewEngine := by
      rw [State.viewEngine_of_running hk, State.viewEngine_of_running hj, hstart]
    have hbusy : s.busy = true := by simp [hj]
    refine .of_view ?_ (by simp only [hview, and_self]) (hb.trans hbusy.symm)
    rw [he]

theorem CoreStep.sameViews {s t : State} (ht : CoreStep s t) (hb : t.busy = true) : s.SameViews t := by
  have hbusy := State.busy_eq_true_iff.mp hb
  cases ht with
  | idle _ => exact .of_view rfl ⟨rfl, rfl, rfl, rfl⟩ rfl
  | dropped _ _ _ => exact absurd rfl hbusy
  | rejected _ _ _ _ => exact absurd rfl hbusy
  | completed w i _ _ _ _ => cases i <;> exact absurd rfl hbusy
  | begun w i j hp _ hj =>
    have hview : s.viewEngine = j.start := by rw [State.viewEngine_of_not_running (by simp [hp]), State.jobOf_start hj]
    refine .of_view rfl ?_ (hb.trans (State.busy_eq_true_iff.mpr (by simp [hp])).symm)
    rw [hview]
    exact ⟨rfl, rfl, rfl, rfl⟩
  | job j _ hp ht => exact ht.sameViews hp hb

theorem HostStep.sameViews {s t : State} (ht : HostStep s t) (hs : s.busy = true) : s.SameViews t := by
  have hbusy := State.busy_eq_true_iff.mp hs
  cases ht with
  | accept hp w => exact absurd hp hbusy
  | argument hp _ _ _ _ => exact absurd hp hbusy
  | writeByte a b _ =>
    refine .of_view rfl ?_ rfl
    cases hp : s.phase <;> simp [State.viewEngine, hp]
  | _ => exact .of_view rfl ⟨rfl, rfl, rfl, rfl⟩ rfl

/-- Settles O10: a job that goes on keeps the start its views show, a command that ends lowers BUSY, and
the host can only set OVR. -/
theorem hostSeesNoIntermediateState : Obligations.HostSeesNoIntermediateState := by
  intro s t hs h hb hr
  have hviews : s.nextTurn.SameViews t := by
    cases step_effect_of_not_reset h hr with
    | core _ ht => exact ht.sameViews hb
    | host _ ht => exact ht.sameViews hs
    | sync => exact .of_view rfl ⟨rfl, rfl, rfl, rfl⟩ rfl
  exact ⟨hviews.statusWord, by rw [State.statusWord_bit0, hb], fun offset ho => hviews.readRegister ho⟩

/-! ### A0 .. A3 -/

/-- A write of an argument register stores the value, and every other register reads as before (R42). -/
theorem State.storeRegister_argument (s : State) {offset : Nat} (ho : offset ∈ [0x04, 0x08, 0x0C, 0x10]) (v : Word) :
    (s.storeRegister offset v).readRegister offset = v ∧ (s.storeRegister offset v).toEngine = s.toEngine ∧
      ∀ other, other ≠ offset → (s.storeRegister offset v).readRegister other = s.readRegister other := by
  simp only [List.mem_cons, List.not_mem_nil, or_false] at ho
  rcases ho with rfl | rfl | rfl | rfl
  · exact ⟨rfl, rfl, fun other hne => State.readRegister_congr (fun _ => rfl) rfl (fun h => absurd h hne) (fun _ => rfl)
      (fun _ => rfl) (fun _ => rfl) ⟨rfl, rfl⟩ ⟨rfl, rfl⟩⟩
  · exact ⟨rfl, rfl, fun other hne => State.readRegister_congr (fun _ => rfl) rfl (fun _ => rfl) (fun h => absurd h hne)
      (fun _ => rfl) (fun _ => rfl) ⟨rfl, rfl⟩ ⟨rfl, rfl⟩⟩
  · exact ⟨rfl, rfl, fun other hne => State.readRegister_congr (fun _ => rfl) rfl (fun _ => rfl) (fun _ => rfl)
      (fun h => absurd h hne) (fun _ => rfl) ⟨rfl, rfl⟩ ⟨rfl, rfl⟩⟩
  · exact ⟨rfl, rfl, fun other hne => State.readRegister_congr (fun _ => rfl) rfl (fun _ => rfl) (fun _ => rfl)
      (fun _ => rfl) (fun h => absurd h hne) ⟨rfl, rfl⟩ ⟨rfl, rfl⟩⟩

/-- Settles O11: by the map of readable registers, and because no case of `CoreStep` writes an argument register. -/
theorem argumentRegistersHoldWhatTheHostWrites : Obligations.ArgumentRegistersHoldWhatTheHostWrites := by
  refine ⟨fun s offset v rest hp ho h => ⟨_, ?_, State.storeRegister_argument { s with agenda := rest } ho v⟩,
    fun s t hc h => (step_core_effect hc h).args⟩
  obtain ⟨hok, _⟩ := hostWritable_offsets offset (List.mem_cons_of_mem _ ho)
  rw [step_writeReg h hok, State.writeRegister_of_idle (by exact hp)]

/-! ### The tuning registers, KEYSET and IVSET -/

/-- Settles O15: every case of `StepEffect` but a completed TUNE leaves the tuning registers alone. -/
theorem onlyTuneChangesTheTuningRegisters : Obligations.OnlyTuneChangesTheTuningRegisters := by
  refine ⟨fun s offset v rest ho h => ?_, fun s => ⟨rfl, rfl, fun offset ho => ?_⟩, rfl, rfl, fun s t h hne => ?_⟩
  · obtain ⟨hok, hw⟩ := ignored_offsets offset ho
    exact step_writeReg_ignored h hok hw
  · simp only [List.mem_cons, List.not_mem_nil, or_false] at ho
    rcases ho with rfl | rfl | rfl | rfl | rfl <;> rfl
  · rcases step_effect h with ⟨hr, _⟩ | ht
    · exact .inl hr
    · rcases ht.tuning with ⟨hb, hm, hp⟩ | ⟨w, f, hw, hd, hf, rfl⟩
      · simp [hb, hm, hp] at hne
      · exact .inr ⟨w, f, hw, hd, hf, rfl, rfl, rfl⟩

/-- Settles O50: no case of `StepEffect` clears them. -/
theorem onlyResetClearsKeysetAndIvset : Obligations.OnlyResetClearsKeysetAndIvset :=
  fun _ _ h hr => (step_effect_of_not_reset h hr).keyset

/-! ### Commands and reset -/

/-- A core's move on an accepted word carries out the command it decodes to (R41). -/
theorem State.coreMove_of_accepted {s : State} {w : Word} {i : Instr} (hp : s.phase = .accepted w) (hd : decode w = .ok i) :
    s.coreMove = exec i s := by
  simp only [State.coreMove, hp, State.runWord, hd]

/-- Settles O5: the accepted word is decoded once, in `coreMove`. -/
theorem stepCarriesOutTheAcceptedCommand : Obligations.StepCarriesOutTheAcceptedCommand := by
  refine ⟨fun s w i hp hd ha => ?_, fun s nbits w i hd => ?_⟩
  · have hmove : step s = s.nextTurn.coreMove := by
      cases h : s.agenda with
      | nil => rw [step_of_empty h, State.nextTurn_of_empty h]
      | cons t rest =>
        obtain rfl : t = .core := by simpa [h] using ha
        rw [step_of_turn h, State.nextTurn_of_turn h]
        rfl
    rw [hmove, State.coreMove_of_accepted (s := s.nextTurn) hp hd]
  · rw [step_of_turn (s := s.withFetchWord nbits w) rfl]
    exact State.coreMove_of_accepted (s := { s with phase := .accepted (tableWord nbits w), past := s.mem :: s.past }) rfl
      (decode_of_toOption hd)

/-- Settles O16: an idle core has no job to abandon. -/
theorem resetSetsEveryRegister : Obligations.ResetSetsEveryRegister := by
  intro s rest hp h
  have hmem : ({ s with agenda := rest } : State).memAfterReset = s.mem := by
    simp [State.memAfterReset, State.currentJob, hp]
  refine ⟨({ s with agenda := rest } : State).resetCore, step_of_turn h, hmem, ?_⟩
  simp [State.resetCore, State.reset, Engine.reset, State.busy, State.lifecycle, lifecycleOf, Config.defaultRounds,
    Config.defaultParEn, Config.defaultBpc, Config.defaultMaxw]

/-! ### Buffer memory -/

theorem inRange_eq_false_iff {a : Nat} {r : Range} : inRange a r = false ↔ a < r.1 ∨ r.1 + r.2 ≤ a := by
  simp only [inRange, Bool.and_eq_false_iff, decide_eq_false_iff_not]
  omega

/-- The command being executed writes the destination of its job, if it has one. -/
theorem State.mem_writeRanges {s : State} {r : Range} :
    r ∈ s.writeRanges ↔ ∃ j, s.currentJob = some j ∧ r = (j.dst, j.len) := by
  unfold State.writeRanges
  cases s.currentJob <;> simp

/-- The instruction of an accepted command is the one its word decodes to. -/
theorem State.acceptedInstr_eq_some {s : State} {i : Instr} (h : s.acceptedInstr = some i) :
    ∃ w, s.phase = .accepted w ∧ decode w = .ok i := by
  unfold State.acceptedInstr at h
  split at h
  · cases h
  next w hp => exact ⟨w, hp, decode_of_toOption h⟩
  · cases h

/-- The command being executed reads its key and nonce, or the source of its job, if it has one. -/
theorem State.mem_readRanges {s : State} {r : Range} (h : r ∈ s.readRanges) :
    (∃ w i, s.phase = .accepted w ∧ decode w = .ok i ∧ r ∈ s.contextReads i) ∨
      ∃ j, s.currentJob = some j ∧ j.zero = false ∧ r = (j.src, j.len) := by
  rcases List.mem_append.mp h with h | h
  · cases hi : s.acceptedInstr with
    | none => simp [hi] at h
    | some i =>
      obtain ⟨w, hp, hd⟩ := State.acceptedInstr_eq_some hi
      exact .inl ⟨w, i, hp, hd, by simpa [hi] using h⟩
  · cases hj : s.currentJob with
    | none => simp [hj] at h
    | some j => exact .inr ⟨j, rfl, by simpa [hj] using h⟩

/-- The host may read a byte outside the destination of the command being executed (R285). -/
theorem State.hostReadForbidden_eq_false {s : State} {a : Nat}
    (h : ∀ j, s.currentJob = some j → a < j.dst ∨ j.dst + j.len ≤ a) : s.hostReadForbidden a = false := by
  refine List.any_eq_false.mpr fun r hr => ?_
  obtain ⟨j, hj, rfl⟩ := State.mem_writeRanges.mp hr
  simpa using inRange_eq_false_iff.mpr (h j hj)

/-- The host may write a byte outside every range the command being executed reads or writes (R285). -/
theorem State.hostWriteForbidden_eq_false {s : State} {a : Nat}
    (hc : ∀ w i, s.phase = .accepted w → decode w = .ok i → ∀ r ∈ s.contextReads i, a < r.1 ∨ r.1 + r.2 ≤ a)
    (hj : ∀ j, s.currentJob = some j →
      (a < j.dst ∨ j.dst + j.len ≤ a) ∧ (j.zero = true ∨ a < j.src ∨ j.src + j.len ≤ a)) :
    s.hostWriteForbidden a = false := by
  refine List.any_eq_false.mpr fun r hr => ?_
  rw [Bool.not_eq_true, inRange_eq_false_iff]
  rcases List.mem_append.mp hr with hr | hr
  · rcases State.mem_readRanges hr with ⟨w, i, hp, hd, hr⟩ | ⟨j, hk, hz, rfl⟩
    · exact hc w i hp hd r hr
    · exact (hj j hk).2.resolve_left (by simp [hz])
  · obtain ⟨j, hk, rfl⟩ := State.mem_writeRanges.mp hr
    exact (hj j hk).1

/-- A host read of a byte in memory, outside the destination of the command being executed. -/
theorem step_readMem {s : State} {a : Nat} {rest : List Turn} (h : s.agenda = .host (.readMem a) :: rest)
    (ha : a < s.cfg.memSize) (hj : ∀ j, s.currentJob = some j → a < j.dst ∨ j.dst + j.len ≤ a) :
    step s = .next { s with
      agenda := rest
      rdata := (s.hostByte a).setWidth 32
      draws := if s.cfg.platformCoherent then s.draws else s.draws + 1 } := by
  have hfree : ({ s with agenda := rest } : State).hostReadForbidden a = false := State.hostReadForbidden_eq_false hj
  simp only [step_of_turn h, State.turn, State.hostAccess, hfree, if_neg (Nat.not_le.mpr ha)]
  rfl

/-- A host write of a byte in memory, outside every range of the command being executed. -/
theorem step_writeMem {s : State} {a : Nat} {b : Byte} {rest : List Turn} (h : s.agenda = .host (.writeMem a b) :: rest)
    (ha : a < s.cfg.memSize)
    (hc : ∀ w i, s.phase = .accepted w → decode w = .ok i → ∀ r ∈ s.contextReads i, a < r.1 ∨ r.1 + r.2 ≤ a)
    (hj : ∀ j, s.currentJob = some j →
      (a < j.dst ∨ j.dst + j.len ≤ a) ∧ (j.zero = true ∨ a < j.src ∨ j.src + j.len ≤ a)) :
    step s = .next { s with mem := s.mem.write a b, agenda := rest, past := s.mem :: s.past } := by
  have hfree : ({ s with agenda := rest } : State).hostWriteForbidden a = false :=
    State.hostWriteForbidden_eq_false hc hj
  simp only [step_of_turn h, State.turn, State.hostAccess, hfree, if_neg (Nat.not_le.mpr ha)]
  rfl

/-- Settles O19: the ranges of R285 by membership, then one access each. -/
theorem hostMemoryAccessesMoveOneByte : Obligations.HostMemoryAccessesMoveOneByte := by
  refine ⟨fun s a b rest => ⟨fun h => ⟨fun ha hj => ⟨fun hc => ?_, fun hc => ?_⟩, fun ha => ?_⟩,
    fun h => ⟨fun ha hwf hctx hj => ?_, fun ha => ?_⟩⟩, fun s rest h => step_of_turn h⟩
  · have hbyte : s.hostByte a = s.mem.read a := (s.hostByte_cases a).resolve_right (by simp [hc])
    rw [step_readMem h ha hj, hbyte, if_pos hc]
  · refine ⟨s.hostByte a, (s.hostByte_cases a).imp id And.right, ?_⟩
    rw [step_readMem h ha hj, if_neg (by simp [hc])]
  · simp [step_of_turn h, State.turn, State.hostAccess, ha]
  · exact ⟨_, step_writeMem h ha hctx hj, rfl, Memory.read_write hwf a b⟩
  · simp [step_of_turn h, State.turn, State.hostAccess, ha]

end Sys2Proof.Machine
end

section
/-! SUPPORT. Noninterference (R52, R242): every operation takes states that differ only in secrets and bytes to states that
again differ only there. One lemma per operation, in the order of the model's definitions; it settles O51. -/

namespace Sys2Proof.Machine

/-! ### Engines -/

/-- The secrets and the bytes of the second engine, named. -/
theorem Engine.sameButSecrets_iff {e f : Engine} : e.sameButSecrets f ↔
    ∃ const key nonce outbuf mem, f = { e with const := const, key := key, nonce := nonce, outbuf := outbuf, mem := mem } :=
  ⟨fun h => ⟨_, _, _, _, _, h⟩, by rintro ⟨_, _, _, _, _, rfl⟩; rfl⟩

theorem Engine.sameButSecrets.next {e f : Engine} (h : e.sameButSecrets f) : f.next = e.next := (congrArg Engine.next h :)
theorem Engine.sameButSecrets.exh {e f : Engine} (h : e.sameButSecrets f) : f.exh = e.exh := (congrArg Engine.exh h :)
theorem Engine.sameButSecrets.term {e f : Engine} (h : e.sameButSecrets f) : f.term = e.term := (congrArg Engine.term h :)
theorem Engine.sameButSecrets.gen {e f : Engine} (h : e.sameButSecrets f) : f.gen = e.gen := (congrArg Engine.gen h :)
theorem Engine.sameButSecrets.ctr {e f : Engine} (h : e.sameButSecrets f) : f.ctr = e.ctr := (congrArg Engine.ctr h :)
theorem Engine.sameButSecrets.rounds {e f : Engine} (h : e.sameButSecrets f) : f.rounds = e.rounds :=
  (congrArg Engine.rounds h :)

theorem Engine.sameButSecrets.generateBlock {e f : Engine} (h : e.sameButSecrets f) :
    e.generateBlock.sameButSecrets f.generateBlock := by
  obtain ⟨_, _, _, _, _, rfl⟩ := Engine.sameButSecrets_iff.mp h
  rfl

theorem Engine.sameButSecrets.exhaust {e f : Engine} (h : e.sameButSecrets f) : e.exhaust.sameButSecrets f.exhaust := by
  obtain ⟨_, _, _, _, _, rfl⟩ := Engine.sameButSecrets_iff.mp h
  rfl

theorem Engine.sameButSecrets.reposition {e f : Engine} (h : e.sameButSecrets f) (base : BlockIndex) (n : Nat) :
    (e.reposition base n).sameButSecrets (f.reposition base n) := by
  obtain ⟨_, _, _, _, _, rfl⟩ := Engine.sameButSecrets_iff.mp h
  rfl

theorem Engine.sameButSecrets.xorByte {e f : Engine} (h : e.sameButSecrets f) (src dst : Nat) (zero : Bool) (i : Nat) :
    (e.xorByte src dst zero i).sameButSecrets (f.xorByte src dst zero i) := by
  obtain ⟨_, _, _, _, _, rfl⟩ := Engine.sameButSecrets_iff.mp h
  unfold Engine.xorByte
  dsimp only
  split <;> rfl

theorem Engine.sameButSecrets.withMem {e f : Engine} (h : e.sameButSecrets f) (m n : Memory) :
    ({ e with mem := m } : Engine).sameButSecrets { f with mem := n } := by
  obtain ⟨_, _, _, _, _, rfl⟩ := Engine.sameButSecrets_iff.mp h
  rfl

/-- SeqRun takes the same path whatever the secrets and the bytes: the same count and the same cause. -/
theorem Engine.sameButSecrets.seqRun {e f : Engine} (h : e.sameButSecrets f) (src dst : Nat) (zero : Bool) (n i : Nat) :
    (seqRun src dst zero n i e).engine.sameButSecrets (seqRun src dst zero n i f).engine ∧
      (seqRun src dst zero n i f).count = (seqRun src dst zero n i e).count ∧
      (seqRun src dst zero n i f).cause = (seqRun src dst zero n i e).cause := by
  induction n generalizing i e f with
  | zero => exact ⟨h, rfl, rfl⟩
  | succ n ih =>
    by_cases hn : e.next = 64
    · have hn' : f.next = 64 := h.next.trans hn
      cases he : e.exh with
      | true =>
        rw [seqRun_exhausted hn he, seqRun_exhausted hn' (h.exh.trans he)]
        exact ⟨h.exhaust, rfl, rfl⟩
      | false =>
        rw [seqRun_generates hn he, seqRun_generates hn' (h.exh.trans he)]
        exact ih (h.generateBlock.xorByte ..) _
    · rw [seqRun_buffered hn, seqRun_buffered (h.next.symm ▸ hn)]
      exact ih (h.xorByte ..) _

/-! ### Workers and regions -/

theorem Worker.sameButSecrets_iff {w v : Worker} : w.sameButSecrets v ↔
    ∃ const key nonce, v = { w with const := const, key := key, nonce := nonce } :=
  ⟨fun h => ⟨_, _, _, h⟩, by rintro ⟨_, _, _, rfl⟩; rfl⟩

theorem Worker.sameButSecrets.k {w v : Worker} (h : w.sameButSecrets v) : v.k = w.k := (congrArg Worker.k h :)

theorem Worker.sameButSecrets.moves {w v : Worker} (h : w.sameButSecrets v) (lanes : Nat) : v.moves lanes = w.moves lanes := by
  obtain ⟨_, _, _, rfl⟩ := Worker.sameButSecrets_iff.mp h
  rfl

theorem Worker.sameButSecrets.advance {w v : Worker} (h : w.sameButSecrets v) : w.advance.sameButSecrets v.advance := by
  obtain ⟨_, _, _, rfl⟩ := Worker.sameButSecrets_iff.mp h
  rfl

/-- Regions with the same scheduler state, their workers differing at most in secrets: what `Stage.sameButSecrets` asks of
two regions. -/
def Region.sameButSecrets (r q : Region) : Prop :=
  q = { r with running := q.running } ∧ List.Forall₂ Worker.sameButSecrets r.running q.running

theorem Region.sameButSecrets_iff {r q : Region} : r.sameButSecrets q ↔
    ∃ running, q = { r with running := running } ∧ List.Forall₂ Worker.sameButSecrets r.running running :=
  ⟨fun h => ⟨_, h⟩, by rintro ⟨_, rfl, h⟩; exact ⟨rfl, h⟩⟩

theorem flatMap_moves_sameButSecrets {ws vs : List Worker} (h : List.Forall₂ Worker.sameButSecrets ws vs) (lanes : Nat) :
    vs.flatMap (·.moves lanes) = ws.flatMap (·.moves lanes) := by
  induction h with
  | nil => rfl
  | cons hv _ ih => simp only [List.flatMap_cons, hv.moves, ih]

theorem Region.sameButSecrets.moves {r q : Region} (h : r.sameButSecrets q) (lanes : Nat) : q.moves lanes = r.moves lanes := by
  obtain ⟨running, rfl, hw⟩ := Region.sameButSecrets_iff.mp h
  simp only [Region.moves, flatMap_moves_sameButSecrets hw]

/-- Both regions have a running worker of chunk `k`, or neither has. -/
theorem find_sameButSecrets {ws vs : List Worker} (h : List.Forall₂ Worker.sameButSecrets ws vs) (k : Nat) :
    Option.Rel Worker.sameButSecrets (ws.find? (·.k = k)) (vs.find? (·.k = k)) := by
  induction h with
  | nil => exact .none
  | @cons w v _ _ hv _ ih =>
    simp only [List.find?_cons, hv.k]
    split
    · exact .some hv
    · exact ih

theorem Region.sameButSecrets.admission {r q : Region} (h : r.sameButSecrets q) {e f : Engine} (he : e.sameButSecrets f)
    (bpc k : Nat) : (r.admission e bpc k).sameButSecrets (q.admission f bpc k) := by
  obtain ⟨running, rfl, hw⟩ := Region.sameButSecrets_iff.mp h
  obtain ⟨_, _, _, _, _, rfl⟩ := Engine.sameButSecrets_iff.mp he
  exact ⟨rfl, List.rel_append hw (.cons rfl .nil)⟩

theorem Region.sameButSecrets.release {r q : Region} (h : r.sameButSecrets q) (k : Nat) :
    (r.release k).sameButSecrets (q.release k) := by
  obtain ⟨running, rfl, hw⟩ := Region.sameButSecrets_iff.mp h
  exact ⟨rfl, List.rel_filter (fun w v hv => by simp [hv.k]) hw⟩

theorem Region.sameButSecrets.advance {r q : Region} (h : r.sameButSecrets q) (k : Nat) :
    (r.advance k).sameButSecrets (q.advance k) := by
  obtain ⟨running, rfl, hw⟩ := Region.sameButSecrets_iff.mp h
  refine ⟨rfl, List.rel_map (fun w v hv => ?_) hw⟩
  rw [hv.k]
  split
  · exact hv.advance
  · exact hv

/-! ### Stages, jobs and phases -/

theorem Stage.sameButSecrets_cases {a b : Stage} (h : a.sameButSecrets b) :
    (a = .lead ∧ b = .lead) ∨ (∃ r q, a = .region r ∧ b = .region q ∧ r.sameButSecrets q) ∨ (a = .rest ∧ b = .rest) := by
  cases a with
  | lead =>
    cases b with
    | lead => exact .inl ⟨rfl, rfl⟩
    | _ => exact h.elim
  | region r =>
    cases b with
    | region q => exact .inr (.inl ⟨r, q, rfl, rfl, h⟩)
    | _ => exact h.elim
  | rest =>
    cases b with
    | rest => exact .inr (.inr ⟨rfl, rfl⟩)
    | _ => exact h.elim

theorem Job.sameButSecrets_iff {j k : Job} : j.sameButSecrets k ↔
    ∃ stage start, k = { j with stage := stage, start := start } ∧ j.stage.sameButSecrets stage ∧
      j.start.sameButSecrets start :=
  ⟨fun h => ⟨_, _, h⟩, by rintro ⟨_, _, rfl, h⟩; exact ⟨rfl, h⟩⟩

theorem Job.sameButSecrets.stage {j k : Job} (h : j.sameButSecrets k) : j.stage.sameButSecrets k.stage := h.2.1
theorem Job.sameButSecrets.start {j k : Job} (h : j.sameButSecrets k) : j.start.sameButSecrets k.start := h.2.2
theorem Job.sameButSecrets.i {j k : Job} (h : j.sameButSecrets k) : k.i = j.i := (congrArg Job.i h.1 :)
theorem Job.sameButSecrets.len {j k : Job} (h : j.sameButSecrets k) : k.len = j.len := (congrArg Job.len h.1 :)

theorem Phase.sameButSecrets_cases {a b : Phase} (h : a.sameButSecrets b) :
    (a = .idle ∧ b = .idle) ∨ (∃ w, a = .accepted w ∧ b = .accepted w) ∨
      ∃ j k, a = .running j ∧ b = .running k ∧ j.sameButSecrets k := by
  cases a with
  | idle =>
    cases b with
    | idle => exact .inl ⟨rfl, rfl⟩
    | _ => exact h.elim
  | accepted w =>
    cases b with
    | accepted v => exact .inr (.inl ⟨w, rfl, congrArg _ (Eq.symm h)⟩)
    | _ => exact h.elim
  | running j =>
    cases b with
    | running k => exact .inr (.inr ⟨j, k, rfl, rfl, h⟩)
    | _ => exact h.elim

/-! ### States -/

theorem State.sameButSecrets_iff {s u : State} : s.sameButSecrets u ↔
    ∃ e p past rdata, u = { s with toEngine := e, phase := p, past := past, rdata := rdata } ∧
      s.toEngine.sameButSecrets e ∧ s.phase.sameButSecrets p :=
  ⟨fun h => ⟨_, _, _, _, h⟩, by rintro ⟨_, _, _, _, rfl, h⟩; exact ⟨rfl, h⟩⟩

theorem State.sameButSecrets.busy {s u : State} (h : s.sameButSecrets u) : u.busy = s.busy := by
  obtain ⟨_, _, hp⟩ := h
  unfold State.busy
  rcases Phase.sameButSecrets_cases hp with ⟨hs, hu⟩ | ⟨w, hs, hu⟩ | ⟨j, k, hs, hu, _⟩ <;> rw [hs, hu]

theorem State.sameButSecrets.viewEngine {s u : State} (h : s.sameButSecrets u) :
    s.viewEngine.sameButSecrets u.viewEngine := by
  obtain ⟨_, he, hp⟩ := h
  unfold State.viewEngine
  rcases Phase.sameButSecrets_cases hp with ⟨hs, hu⟩ | ⟨w, hs, hu⟩ | ⟨j, k, hs, hu, hj⟩ <;> rw [hs, hu]
  · exact he
  · exact he
  · exact hj.start

/-- No register read shows a secret or a byte of memory (R52). -/
theorem State.sameButSecrets.readRegister {s u : State} (h : s.sameButSecrets u) (offset : Nat) :
    u.readRegister offset = s.readRegister offset := by
  have hview := h.viewEngine
  have hbusy := h.busy
  obtain ⟨e, p, past, rdata, rfl, _, _⟩ := State.sameButSecrets_iff.mp h
  refine State.readRegister_congr (fun _ => ?_) ?_ (fun _ => rfl) (fun _ => rfl) (fun _ => rfl) (fun _ => rfl)
    ⟨rfl, rfl⟩ ⟨rfl, rfl⟩
  · simp only [State.statusWord, hbusy, hview.exh, hview.term, hview.gen]
  · simp only [State.cfgWord, hview.rounds]

theorem State.sameButSecrets.engine {s u : State} (h : s.sameButSecrets u) : s.toEngine.sameButSecrets u.toEngine := h.2.1
theorem State.sameButSecrets.phase {s u : State} (h : s.sameButSecrets u) : s.phase.sameButSecrets u.phase := h.2.2
theorem State.sameButSecrets.fatal {s u : State} (h : s.sameButSecrets u) : u.fatal = s.fatal := (congrArg State.fatal h.1 :)
theorem State.sameButSecrets.bpc {s u : State} (h : s.sameButSecrets u) : u.bpc = s.bpc := (congrArg State.bpc h.1 :)
theorem State.sameButSecrets.cfg {s u : State} (h : s.sameButSecrets u) : u.cfg = s.cfg := (congrArg State.cfg h.1 :)
theorem State.sameButSecrets.agenda {s u : State} (h : s.sameButSecrets u) : u.agenda = s.agenda := (congrArg State.agenda h.1 :)
theorem State.sameButSecrets.a0 {s u : State} (h : s.sameButSecrets u) : u.a0 = s.a0 := (congrArg State.a0 h.1 :)
theorem State.sameButSecrets.a1 {s u : State} (h : s.sameButSecrets u) : u.a1 = s.a1 := (congrArg State.a1 h.1 :)
theorem State.sameButSecrets.a2 {s u : State} (h : s.sameButSecrets u) : u.a2 = s.a2 := (congrArg State.a2 h.1 :)

/-- The engine and the phase replaced by ones that differ only in secrets and bytes. -/
theorem State.sameButSecrets.set {s u : State} (h : s.sameButSecrets u) {e f : Engine} (he : e.sameButSecrets f)
    {p q : Phase} (hp : p.sameButSecrets q) :
    ({ s with toEngine := e, phase := p } : State).sameButSecrets { u with toEngine := f, phase := q } := by
  obtain ⟨_, _, _, _, rfl, _, _⟩ := State.sameButSecrets_iff.mp h
  exact ⟨rfl, he, hp⟩

theorem State.sameButSecrets.setEngine {s u : State} (h : s.sameButSecrets u) {e f : Engine} (he : e.sameButSecrets f) :
    ({ s with toEngine := e } : State).sameButSecrets { u with toEngine := f } :=
  h.set he h.phase

theorem State.sameButSecrets.setPhase {s u : State} (h : s.sameButSecrets u) {p q : Phase} (hp : p.sameButSecrets q) :
    ({ s with phase := p } : State).sameButSecrets { u with phase := q } :=
  h.set h.engine hp

theorem State.sameButSecrets.withAgenda {s u : State} (h : s.sameButSecrets u) (rest : List Turn) :
    ({ s with agenda := rest } : State).sameButSecrets { u with agenda := rest } := by
  obtain ⟨_, _, _, _, rfl, he, hp⟩ := State.sameButSecrets_iff.mp h
  exact ⟨rfl, he, hp⟩

theorem State.sameButSecrets.finish {s u : State} (h : s.sameButSecrets u) (c : Cause) (r0 r1 : Word) :
    (s.finish c r0 r1).sameButSecrets (u.finish c r0 r1) := by
  obtain ⟨_, _, _, _, rfl, he, _⟩ := State.sameButSecrets_iff.mp h
  exact ⟨rfl, he, trivial⟩

theorem State.sameButSecrets.dropCommand {s u : State} (h : s.sameButSecrets u) :
    s.dropCommand.sameButSecrets u.dropCommand :=
  h.setPhase trivial

/-! ### Commands -/

/-- The checks of the commands read no secret. -/
theorem State.sameButSecrets.checkOf {s u : State} (h : s.sameButSecrets u) (i : Instr) : u.checkOf i = s.checkOf i := by
  obtain ⟨_, _, _, _, rfl, he, _⟩ := State.sameButSecrets_iff.mp h
  obtain ⟨_, _, _, _, _, rfl⟩ := Engine.sameButSecrets_iff.mp he
  cases i <;> rfl

theorem State.sameButSecrets.generate {s u : State} (h : s.sameButSecrets u) (src dst len : Nat) (zero : Bool) :
    (s.generate src dst len zero).sameButSecrets (u.generate src dst len zero) := by
  obtain ⟨he, hcount, hcause⟩ := h.engine.seqRun src dst zero len 0
  simp only [State.generate, hcount, hcause]
  exact (h.setEngine he).finish ..

theorem State.sameButSecrets.effectOf {s u : State} (h : s.sameButSecrets u) (i : Instr) :
    (s.effectOf i).sameButSecrets (u.effectOf i) := by
  cases i with
  | xor =>
    simp only [State.effectOf, h.a0, h.a1, h.a2]
    exact h.generate ..
  | ks =>
    simp only [State.effectOf, h.a1, h.a2]
    exact h.generate ..
  | _ =>
    obtain ⟨_, _, _, _, rfl, he, _⟩ := State.sameButSecrets_iff.mp h
    obtain ⟨_, _, _, _, _, rfl⟩ := Engine.sameButSecrets_iff.mp he
    exact ⟨rfl, rfl, trivial⟩

theorem State.sameButSecrets.afterCommand {s u : State} (h : s.sameButSecrets u) (i : Instr) :
    (s.afterCommand i).sameButSecrets (u.afterCommand i) := by
  unfold State.afterCommand
  rw [h.fatal, h.checkOf]
  split
  · exact h.dropCommand
  · cases s.checkOf i with
    | some c => exact h.finish ..
    | none => exact h.effectOf i

theorem State.sameButSecrets.exec {s u : State} (h : s.sameButSecrets u) (i : Instr) :
    sameOutcome (exec i s) (exec i u) := by
  rw [exec_eq, exec_eq]
  exact h.afterCommand i

theorem State.sameButSecrets.runWord {s u : State} (h : s.sameButSecrets u) (w : Word) :
    sameOutcome (s.runWord w) (u.runWord w) := by
  unfold State.runWord
  cases decode w with
  | ok i => exact h.exec i
  | error _ =>
    simp only [State.illegalCommand, State.gated, h.fatal]
    split
    · exact h.dropCommand
    · exact h.finish ..

/-! ### The steps of a running job -/

theorem State.sameButSecrets.byteStep {s u : State} (h : s.sameButSecrets u) {j k : Job} (hj : j.sameButSecrets k) :
    (s.byteStep j).sameButSecrets (u.byteStep k) := by
  obtain ⟨_, _, rfl, hstage, hstart⟩ := Job.sameButSecrets_iff.mp hj
  exact h.set (h.engine.xorByte ..) ⟨rfl, hstage, hstart⟩

/-- The job goes on at the same offset in stages that differ only in secrets. -/
theorem Job.sameButSecrets.advance {j k : Job} (hj : j.sameButSecrets k) (i : Nat) {a b : Stage} (h : a.sameButSecrets b) :
    (Phase.running { j with i := i, stage := a }).sameButSecrets (.running { k with i := i, stage := b }) := by
  obtain ⟨_, _, rfl, _, hstart⟩ := Job.sameButSecrets_iff.mp hj
  exact ⟨rfl, h, hstart⟩

theorem Job.sameButSecrets.enter {j k : Job} (hj : j.sameButSecrets k) {a b : Stage} (h : a.sameButSecrets b) :
    (Phase.running { j with stage := a }).sameButSecrets (.running { k with stage := b }) := by
  obtain ⟨_, _, rfl, _, hstart⟩ := Job.sameButSecrets_iff.mp hj
  exact ⟨rfl, h, hstart⟩

theorem State.sameButSecrets.withRegion {s u : State} (h : s.sameButSecrets u) {j k : Job} (hj : j.sameButSecrets k)
    {r q : Region} (hr : r.sameButSecrets q) : (s.withRegion j r).sameButSecrets (u.withRegion k q) :=
  h.setPhase (hj.enter hr)

theorem State.sameButSecrets.plan {s u : State} (h : s.sameButSecrets u) {j k : Job} (hj : j.sameButSecrets k) :
    (s.plan j).sameButSecrets (u.plan k) := by
  have hruns : u.regionRuns (k.len - k.i) = s.regionRuns (j.len - j.i) := by
    obtain ⟨_, _, _, _, rfl, he, _⟩ := State.sameButSecrets_iff.mp h
    simp only [State.regionRuns, hj.i, hj.len, he.exh, he.ctr]
  have hregion : u.newRegion k.i (k.len - k.i) = s.newRegion j.i (j.len - j.i) := by
    obtain ⟨_, _, _, _, rfl, he, _⟩ := State.sameButSecrets_iff.mp h
    simp only [State.newRegion, hj.i, hj.len, he.ctr]
  unfold State.plan
  rw [hruns, hregion]
  split
  · exact h.withRegion hj ⟨rfl, .nil⟩
  · exact h.setPhase (hj.enter (a := .rest) (b := .rest) trivial)

theorem State.sameButSecrets.seqStep {s u : State} (h : s.sameButSecrets u) {j k : Job} (hj : j.sameButSecrets k) :
    (s.seqStep j).sameButSecrets (u.seqStep k) := by
  unfold State.seqStep
  rw [hj.i, hj.len, h.engine.next, h.engine.exh]
  split
  · exact h.finish ..
  · split
    · split
      · exact (h.setEngine h.engine.exhaust).finish ..
      · exact h.setEngine h.engine.generateBlock
    · exact h.byteStep hj

theorem State.sameButSecrets.workerMove {s u : State} (h : s.sameButSecrets u) {j k : Job} (hj : j.sameButSecrets k)
    {r q : Region} (hr : r.sameButSecrets q) (m : Move) : (s.workerMove j r m).sameButSecrets (u.workerMove k q m) := by
  cases m with
  | admission c =>
    simp only [State.workerMove, h.bpc]
    exact h.withRegion hj (hr.admission h.engine ..)
  | release c => exact h.withRegion hj (hr.release c)
  | block c lane =>
    have hfind := find_sameButSecrets hr.2 c
    simp only [State.workerMove]
    generalize r.running.find? (·.k = c) = a at hfind ⊢
    generalize q.running.find? (·.k = c) = b at hfind ⊢
    cases hfind with
    | none => exact h
    | some _ => exact (h.setEngine (h.engine.withMem _ _)).withRegion hj (hr.advance c)

theorem State.sameButSecrets.regionStep {s u : State} (h : s.sameButSecrets u) {j k : Job} (hj : j.sameButSecrets k)
    {r q : Region} (hr : r.sameButSecrets q) (pick : Nat) :
    (s.regionStep j r pick).sameButSecrets (u.regionStep k q pick) := by
  have hbarrier : q.barrier = r.barrier := (congrArg Region.barrier hr.1 :)
  have hbase : q.base = r.base := (congrArg Region.base hr.1 :)
  have hn : q.n = r.n := (congrArg Region.n hr.1 :)
  have hmoves : q.moves u.cfg.numLanes = r.moves s.cfg.numLanes := by
    rw [hr.moves, h.cfg]
  have hengine : (s.toEngine.reposition r.base (r.n * s.bpc.toNat)).sameButSecrets
      (u.toEngine.reposition q.base (q.n * u.bpc.toNat)) := by
    rw [hbase, hn, h.bpc]
    exact h.engine.reposition ..
  have hphase : (Phase.running { j with i := j.i + r.n * (64 * s.bpc.toNat), stage := .rest }).sameButSecrets
      (.running { k with i := k.i + q.n * (64 * u.bpc.toNat), stage := .rest }) := by
    rw [hj.i, hn, h.bpc]
    exact hj.advance _ (a := .rest) (b := .rest) trivial
  unfold State.regionStep
  rw [hbarrier, hmoves]
  split
  · exact h.set hengine hphase
  · split
    · exact h
    next m _ => exact h.workerMove hj hr m

theorem State.sameButSecrets.jobStep {s u : State} (h : s.sameButSecrets u) {j k : Job} (hj : j.sameButSecrets k)
    (pick : Nat) : (s.jobStep j pick).sameButSecrets (u.jobStep k pick) := by
  unfold State.jobStep
  rcases Stage.sameButSecrets_cases hj.stage with ⟨hs, hu⟩ | ⟨r, q, hs, hu, hr⟩ | ⟨hs, hu⟩ <;> rw [hs, hu]
  · simp only [hj.i, hj.len, h.engine.next]
    split
    · exact h.byteStep hj
    · exact h.plan hj
  · exact h.regionStep hj hr pick
  · exact h.seqStep hj

/-! ### The job of an accepted command and its ranges -/

theorem State.sameButSecrets.newJob {s u : State} (h : s.sameButSecrets u) (src dst len : Nat) (zero : Bool) :
    (s.newJob src dst len zero).sameButSecrets (u.newJob src dst len zero) :=
  ⟨rfl, trivial, h.engine⟩

theorem State.sameButSecrets.jobOf {s u : State} (h : s.sameButSecrets u) (i : Instr) :
    Option.Rel Job.sameButSecrets (s.jobOf i) (u.jobOf i) := by
  have hxor : u.checkXor = s.checkXor := h.checkOf .xor
  have hks : u.checkKs = s.checkKs := h.checkOf .ks
  cases i with
  | xor =>
    simp only [State.jobOf, h.fatal, hxor, h.a0, h.a1, h.a2]
    split
    · exact .none
    · exact .some (h.newJob ..)
  | ks =>
    simp only [State.jobOf, h.fatal, hks, h.a1, h.a2]
    split
    · exact .none
    · exact .some (h.newJob ..)
  | _ => exact .none

theorem State.sameButSecrets.acceptedInstr {s u : State} (h : s.sameButSecrets u) : u.acceptedInstr = s.acceptedInstr := by
  unfold State.acceptedInstr
  rcases Phase.sameButSecrets_cases h.phase with ⟨hs, hu⟩ | ⟨w, hs, hu⟩ | ⟨j, k, hs, hu, _⟩ <;> rw [hs, hu]

theorem State.sameButSecrets.currentJob {s u : State} (h : s.sameButSecrets u) :
    Option.Rel Job.sameButSecrets s.currentJob u.currentJob := by
  unfold State.currentJob
  rw [h.acceptedInstr]
  rcases Phase.sameButSecrets_cases h.phase with ⟨hs, hu⟩ | ⟨w, hs, hu⟩ | ⟨j, k, hs, hu, hj⟩ <;> rw [hs, hu]
  · exact .none
  · cases s.acceptedInstr with
    | none => exact .none
    | some i => exact h.jobOf i
  · exact .some hj

theorem State.sameButSecrets.contextReads {s u : State} (h : s.sameButSecrets u) (i : Instr) :
    u.contextReads i = s.contextReads i := by
  obtain ⟨_, _, _, _, rfl, he, _⟩ := State.sameButSecrets_iff.mp h
  obtain ⟨_, _, _, _, _, rfl⟩ := Engine.sameButSecrets_iff.mp he
  cases i <;> rfl

theorem State.sameButSecrets.writeRanges {s u : State} (h : s.sameButSecrets u) : u.writeRanges = s.writeRanges := by
  unfold State.writeRanges
  have hjob := h.currentJob
  generalize s.currentJob = a at hjob ⊢
  generalize u.currentJob = b at hjob ⊢
  cases hjob with
  | none => rfl
  | some hj =>
    obtain ⟨_, _, rfl, _, _⟩ := Job.sameButSecrets_iff.mp hj
    rfl

theorem State.sameButSecrets.readRanges {s u : State} (h : s.sameButSecrets u) : u.readRanges = s.readRanges := by
  have hctx : u.contextReads = s.contextReads := funext h.contextReads
  have hjob := h.currentJob
  unfold State.readRanges
  rw [h.acceptedInstr, hctx]
  generalize s.currentJob = a at hjob ⊢
  generalize u.currentJob = b at hjob ⊢
  cases hjob with
  | none => rfl
  | some hj =>
    obtain ⟨_, _, rfl, _, _⟩ := Job.sameButSecrets_iff.mp hj
    rfl

/-! ### The host -/

theorem State.sameButSecrets.resetCore {s u : State} (h : s.sameButSecrets u) : s.resetCore.sameButSecrets u.resetCore := by
  obtain ⟨_, _, _, _, rfl, _, _⟩ := State.sameButSecrets_iff.mp h
  exact ⟨rfl, rfl, trivial⟩

theorem State.sameButSecrets.storeRegister {s u : State} (h : s.sameButSecrets u) (offset : Nat) (v : Word) :
    (s.storeRegister offset v).sameButSecrets (u.storeRegister offset v) := by
  obtain ⟨_, _, _, _, rfl, he, hp⟩ := State.sameButSecrets_iff.mp h
  unfold State.storeRegister
  split
  · exact ⟨rfl, he, rfl⟩
  all_goals exact ⟨rfl, he, hp⟩

theorem State.sameButSecrets.writeRegister {s u : State} (h : s.sameButSecrets u) (offset : Nat) (v : Word) :
    (s.writeRegister offset v).sameButSecrets (u.writeRegister offset v) := by
  unfold State.writeRegister
  rw [h.busy]
  split
  · obtain ⟨_, _, _, _, rfl, he, hp⟩ := State.sameButSecrets_iff.mp h
    exact ⟨rfl, he, hp⟩
  · exact h.storeRegister offset v

theorem State.sameButSecrets.hostAccess {s u : State} (h : s.sameButSecrets u) (a : HostAccess) :
    sameOutcome (s.hostAccess a) (u.hostAccess a) := by
  cases a with
  | readReg offset width =>
    simp only [State.hostAccess]
    split
    · obtain ⟨_, _, _, _, rfl, he, hp⟩ := State.sameButSecrets_iff.mp h
      exact ⟨rfl, he, hp⟩
    · rfl
  | writeReg offset width v =>
    simp only [State.hostAccess]
    split
    · exact h.writeRegister offset v
    · rfl
  | readMem a =>
    have hfree : u.hostReadForbidden a = s.hostReadForbidden a := by
      simp only [State.hostReadForbidden, h.writeRanges]
    simp only [State.hostAccess, h.cfg, hfree]
    split
    · rfl
    · split
      · rfl
      · obtain ⟨_, _, _, _, rfl, he, hp⟩ := State.sameButSecrets_iff.mp h
        exact ⟨rfl, he, hp⟩
  | writeMem a b =>
    have hfree : u.hostWriteForbidden a = s.hostWriteForbidden a := by
      simp only [State.hostWriteForbidden, h.writeRanges, h.readRanges]
    simp only [State.hostAccess, h.cfg, hfree]
    split
    · rfl
    · split
      · rfl
      · obtain ⟨_, _, _, _, rfl, he, hp⟩ := State.sameButSecrets_iff.mp h
        exact ⟨rfl, he.withMem _ _, hp⟩
  | reset => exact h.resetCore

theorem State.sameButSecrets.busAccess {s u : State} (h : s.sameButSecrets u) (b : BusAccess) :
    sameOutcome (s.busAccess b) (u.busAccess b) := by
  unfold State.busAccess
  rw [h.cfg]
  cases b.route s.cfg with
  | some a => exact h.hostAccess a
  | none => rfl

/-! ### One step -/

theorem State.sameButSecrets.coreMove {s u : State} (h : s.sameButSecrets u) : sameOutcome s.coreMove u.coreMove := by
  unfold State.coreMove
  rcases Phase.sameButSecrets_cases h.phase with ⟨hs, hu⟩ | ⟨w, hs, hu⟩ | ⟨j, k, hs, hu, hj⟩ <;> rw [hs, hu]
  · exact h
  · exact h.runWord w
  · exact h.jobStep hj 0

theorem State.sameButSecrets.fineMove {s u : State} (h : s.sameButSecrets u) (pick : Nat) :
    sameOutcome (s.fineMove pick) (u.fineMove pick) := by
  have hjob := h.currentJob
  unfold State.fineMove
  rcases Phase.sameButSecrets_cases h.phase with ⟨hs, hu⟩ | ⟨w, hs, hu⟩ | ⟨j, k, hs, hu, hj⟩ <;> rw [hs, hu]
  · exact h
  · generalize s.currentJob = a at hjob ⊢
    generalize u.currentJob = b at hjob ⊢
    cases hjob with
    | none => exact h.runWord w
    | some hj => exact h.setPhase hj
  · exact h.jobStep hj pick

theorem State.sameButSecrets.turn {s u : State} (h : s.sameButSecrets u) (t : Turn) : sameOutcome (s.turn t) (u.turn t) := by
  cases t with
  | host a => exact h.hostAccess a
  | bus b => exact h.busAccess b
  | sync =>
    obtain ⟨_, _, _, _, rfl, he, hp⟩ := State.sameButSecrets_iff.mp h
    exact ⟨rfl, he, hp⟩
  | core => exact h.coreMove
  | fine pick => exact h.fineMove pick

theorem State.sameButSecrets.step {s u : State} (h : s.sameButSecrets u) : sameOutcome (step s) (step u) := by
  cases ha : s.agenda with
  | nil =>
    rw [step_of_empty ha, step_of_empty (h.agenda.trans ha)]
    exact h.coreMove
  | cons t rest =>
    rw [step_of_turn ha, step_of_turn (h.agenda.trans ha)]
    exact (h.withAgenda rest).turn t

theorem State.differsInSecretsOnly_iff {s u : State} : s.differsInSecretsOnly u ↔
    ∃ const key nonce outbuf, u = { s with const := const, key := key, nonce := nonce, outbuf := outbuf } :=
  ⟨fun h => ⟨_, _, _, _, h⟩, by rintro ⟨_, _, _, _, rfl⟩; rfl⟩

/-- A command other than XOR and KS leaves equal memories equal, whatever the secrets. -/
theorem State.differsInSecretsOnly.afterCommand {s u : State} (h : s.differsInSecretsOnly u) {i : Instr} (hx : i ≠ .xor)
    (hk : i ≠ .ks) : (s.afterCommand i).differsInSecretsOnly (u.afterCommand i) := by
  have hcheck : u.checkOf i = s.checkOf i := by
    obtain ⟨_, _, _, _, rfl⟩ := State.differsInSecretsOnly_iff.mp h
    cases i <;> rfl
  have hfatal : u.fatal = s.fatal := (congrArg State.fatal h :)
  unfold State.afterCommand
  rw [hfatal, hcheck]
  obtain ⟨_, _, _, _, rfl⟩ := State.differsInSecretsOnly_iff.mp h
  split
  · rfl
  · cases s.checkOf i with
    | some c => rfl
    | none =>
      cases i with
      | xor => exact absurd rfl hx
      | ks => exact absurd rfl hk
      | _ => rfl

/-- Settles O51: `step` and `exec` keep `sameButSecrets`, operation by operation. -/
theorem secretsDoNotReachTheHostRegisters : Obligations.SecretsDoNotReachTheHostRegisters := by
  refine ⟨fun s u h => ⟨h.readRegister, h.step, h.exec⟩, fun s u h i t hx hk ht => ?_⟩
  obtain rfl : s.afterCommand i = t := by simpa [exec_eq] using ht
  exact ⟨_, exec_eq i u, h.afterCommand hx hk⟩

end Sys2Proof.Machine
end

section
/-! SUPPORT. Buffer memory as its reads show it: `MemRead` and `MemWrite` byte by byte, the canonical form determined by the
reads, R71's overlap check, and where a bus access is routed. It settles O20, O21, O22, O60. -/

namespace Sys2Proof.Machine

/-! ### Several bytes -/

@[simp] theorem Memory.length_readBytes (m : Memory) (a n : Nat) : (m.readBytes a n).length = n := by
  simp [Memory.readBytes]

@[simp] theorem Memory.getElem?_readBytes (m : Memory) (a : Nat) {n j : Nat} (hj : j < n) :
    (m.readBytes a n)[j]? = some (m.read (a + j)) := by
  simp [Memory.readBytes, hj]

/-- Reading after `MemWrite`: the byte written inside its range, every other as before (R63). -/
theorem Memory.read_writeBytes {m : Memory} (h : m.wf) (a : Nat) (bs : List Byte) (x : Nat) :
    (m.writeBytes a bs).read x = if a ≤ x ∧ x < a + bs.length then bs.getD (x - a) 0 else m.read x := by
  induction bs generalizing m a with
  | nil => simp [Memory.writeBytes, Nat.not_lt.mpr]
  | cons b bs ih =>
    have hstep : (m.writeBytes a (b :: bs)).read x = if a + 1 ≤ x ∧ x < a + 1 + bs.length then bs.getD (x - (a + 1)) 0
        else if x = a then b else m.read x := by
      rw [← Memory.read_write h]
      exact ih (Memory.write_wf h a b) (a + 1)
    rw [hstep, List.length_cons]
    rcases Nat.lt_trichotomy x a with hx | rfl | hx
    · rw [if_neg (by omega), if_neg (by omega), if_neg (by omega)]
    · rw [if_neg (by omega), if_pos rfl, if_pos (by omega), Nat.sub_self, List.getD_cons_zero]
    · obtain ⟨d, rfl⟩ := Nat.exists_eq_add_of_lt hx
      rw [show a + d + 1 - (a + 1) = d by omega, show a + d + 1 - a = d + 1 by omega, List.getD_cons_succ,
        if_neg (by omega : a + d + 1 ≠ a)]
      exact if_congr (by omega) rfl rfl

/-- Settles O20: one byte's read and write, along the list of bytes. -/
theorem memReadAndMemWriteMoveExactlyTheirBytes : Obligations.MemReadAndMemWriteMoveExactlyTheirBytes :=
  ⟨fun m a n => ⟨m.length_readBytes a n, fun _ hj => m.getElem?_readBytes a hj⟩,
    fun _ a bs h => Memory.read_writeBytes h a bs⟩

/-! ### The canonical form -/

theorem Memory.read_cons (c : Host.Cell) (m : Memory) (a : Nat) :
    Memory.read (c :: m) a = if a = c.1 then c.2 else m.read a := rfl

/-- A canonical memory lists exactly the bytes that do not read as an unlisted one. -/
theorem Memory.mem_iff_read {m : Memory} (h : m.wf) (c : Host.Cell) :
    c ∈ m ↔ m.read c.1 = c.2 ∧ c.2 ≠ Config.unlistedByte := by
  induction m with
  | nil => simpa [Memory.read] using fun hc => hc.symm
  | cons d m ih =>
    have hlt := Memory.wf_head_lt h
    rw [List.mem_cons, Memory.read_cons]
    by_cases hc : c.1 = d.1
    · have hm : c ∉ m := fun hm => absurd (hlt c hm) (by omega)
      have hd : d.2 ≠ Config.unlistedByte := h.2 d (List.mem_cons_self ..)
      rw [if_pos hc, or_iff_left hm, Prod.ext_iff, and_iff_right hc]
      exact ⟨fun he => ⟨he.symm, he ▸ hd⟩, fun he => he.1.symm⟩
    · rw [if_neg hc, or_iff_right (fun he => hc (congrArg Prod.fst he)), ih (Memory.wf_tail h)]

/-- Settles O21: alike reads give the same cells, and a strictly rising list is determined by its cells. -/
theorem canonicalMemoriesThatReadAlikeAreEqual : Obligations.CanonicalMemoriesThatReadAlikeAreEqual := by
  intro m n hm hn hread
  have : Std.Asymm fun c d : Host.Cell => c.1 < d.1 := ⟨fun _ _ => Nat.lt_asymm⟩
  exact hm.1.eq_of_mem_iff hn.1 fun c => by rw [Memory.mem_iff_read hm, Memory.mem_iff_read hn, hread]

/-! ### Partial overlap -/

/-- R71's test holds exactly of ranges at different addresses that share an address. -/
theorem partialOverlap_iff {src dst n : Nat} : partialOverlap src dst n = true ↔
    src ≠ dst ∧ ∃ a, (src ≤ a ∧ a < src + n) ∧ (dst ≤ a ∧ a < dst + n) := by
  simp only [partialOverlap, Bool.and_eq_true, decide_eq_true_eq]
  constructor
  · rintro ⟨⟨⟨hn, hne⟩, hs⟩, hd⟩
    exact ⟨hne, max src dst, by omega, by omega⟩
  · rintro ⟨hne, a, ha, hb⟩
    omega

/-- The overlap check is the last of XOR's (R176). -/
theorem State.checkXor_of_earlier_pass {s : State} (hk : s.keyset = true) (hi : s.ivset = true) (ht : s.term = false)
    (hl : s.a2.toNat ≤ s.a3.toNat) (hsrc : inMemory s.cfg.memSize s.a0.toNat s.a2.toNat = true)
    (hdst : inMemory s.cfg.memSize s.a1.toNat s.a2.toNat = true) :
    s.checkXor = if partialOverlap s.a0.toNat s.a1.toNat s.a2.toNat = true then some .overlapError else none := by
  simp [State.checkXor, hk, hi, ht, hsrc, hdst, Nat.not_lt.mpr hl]

/-- A command that generates keystream ends with OK or KeystreamExhausted, and neither sets FATAL (R228). -/
theorem State.generate_fatal (s : State) (src dst len : Nat) (zero : Bool) :
    (s.generate src dst len zero).fatal = s.fatal := by
  have hcause : (seqRun src dst zero len 0 s.toEngine).cause.isFatal = false := by
    rcases seqRun_ends src dst zero len 0 s.toEngine with ⟨hc, _⟩ | ⟨hc, _⟩ <;> rw [hc] <;> rfl
  simp [State.generate, hcause]

/-- Settles O22: the overlap check decides, and an XOR that passes it leaves FATAL = 0. -/
theorem xorRejectsExactlyPartialOverlap : Obligations.XorRejectsExactlyPartialOverlap := by
  intro s hf hk hi ht hl hm
  have hzero (h : s.a2 = 0) : s.a2.toNat = 0 := congrArg BitVec.toNat h
  have hsrc := inMemory_iff.mpr (hm.imp hzero And.left)
  have hdst := inMemory_iff.mpr (hm.imp hzero And.right)
  have hcheck := State.checkXor_of_earlier_pass hk hi ht hl hsrc hdst
  have hexec : exec .xor s = s.checked s.checkXor (s.generate s.a0.toNat s.a1.toNat s.a2.toNat false) :=
    State.gated_of_clear hf _
  rw [Ne, ← BitVec.toNat_inj, ← partialOverlap_iff, hexec, hcheck]
  split
  next ho => simp [ho]
  next ho =>
    refine iff_of_false (fun h => ?_) ho
    have hfatal := congrArg State.fatal (Host.Outcome.next.inj h)
    simp [State.generate_fatal, hf] at hfatal

/-! ### The host's address space -/

/-- The routing that reads and writes share: `reg` at an offset in the register window, `mem` at an address of buffer memory
(R68). -/
def BusAccess.routeTo (c : Config) (addr width : Nat) (reg mem : Nat → HostAccess) : Option HostAccess :=
  if c.regBase ≤ addr ∧ addr < c.regBase + 0x40 then some (reg (addr - c.regBase))
  else if c.bufBase ≤ addr ∧ addr < c.bufBase + c.memSize ∧ width = 8 then some (mem (addr - c.bufBase))
  else none

theorem BusAccess.route_read (c : Config) (addr width : Nat) :
    (BusAccess.read addr width).route c = routeTo c addr width (.readReg · width) .readMem := rfl

theorem BusAccess.route_write (c : Config) (addr width : Nat) (v : Word) :
    (BusAccess.write addr width v).route c =
      routeTo c addr width (.writeReg · width v) (.writeMem · (v.setWidth 8)) := rfl

section
variable {c : Config} (width : Nat) (reg mem : Nat → HostAccess)

theorem BusAccess.routeTo_window {offset : Nat} (ho : offset < 0x40) :
    routeTo c (c.regBase + offset) width reg mem = some (reg offset) := by
  rw [routeTo, if_pos (by omega), Nat.add_sub_cancel_left]

/-- A buffer address is not in the register window (log entry 20). -/
theorem BusAccess.routeTo_buffer (hc : c.ok) {a : Nat} (ha : a < c.memSize) :
    routeTo c (c.bufBase + a) 8 reg mem = some (mem a) := by
  obtain ⟨-, -, -, hdisjoint⟩ := hc
  rw [routeTo, if_neg (by omega), if_pos (by omega), Nat.add_sub_cancel_left]

theorem BusAccess.routeTo_eq_none {addr : Nat} (hr : ∀ offset, offset < 0x40 → addr ≠ c.regBase + offset)
    (hb : width ≠ 8 ∨ ∀ a, a < c.memSize → addr ≠ c.bufBase + a) : routeTo c addr width reg mem = none := by
  have hwindow : ¬(c.regBase ≤ addr ∧ addr < c.regBase + 0x40) := fun h => hr (addr - c.regBase) (by omega) (by omega)
  have hbuffer : ¬(c.bufBase ≤ addr ∧ addr < c.bufBase + c.memSize ∧ width = 8) := fun ⟨hle, hlt, hw⟩ =>
    hb.elim (· hw) fun hb => hb (addr - c.bufBase) (by omega) (by omega)
  rw [routeTo, if_neg hwindow, if_neg hbuffer]

end

/-- A routed bus access is a step of the host access it is routed to. -/
theorem step_bus_of_route {s : State} {b : BusAccess} {a : HostAccess} {rest : List Turn} (h : s.agenda = .bus b :: rest)
    (hr : b.route s.cfg = some a) : step s = step { s with agenda := .host a :: rest } := by
  simp only [step_of_turn h, step_of_turn (s := { s with agenda := .host a :: rest }) rfl, State.turn, State.busAccess, hr]

theorem step_bus_of_route_none {s : State} {b : BusAccess} {rest : List Turn} (h : s.agenda = .bus b :: rest)
    (hr : b.route s.cfg = none) : step s = .refused .busAccessNotRouted := by
  simp only [step_of_turn h, State.turn, State.busAccess, hr]

/-- What the step of a bus access is, from the access's routing: the register access, the buffer access, or the refusal. -/
theorem step_bus_of_routeTo {s : State} {b : BusAccess} {addr width : Nat} {reg mem : Nat → HostAccess} {rest : List Turn}
    (hc : s.cfg.ok) (h : s.agenda = .bus b :: rest) (hb : b.route s.cfg = BusAccess.routeTo s.cfg addr width reg mem) :
    (∀ offset, offset < 0x40 → addr = s.cfg.regBase + offset →
      step s = step { s with agenda := .host (reg offset) :: rest }) ∧
    (∀ a, a < s.cfg.memSize → addr = s.cfg.bufBase + a → width = 8 →
      step s = step { s with agenda := .host (mem a) :: rest }) ∧
    ((∀ offset, offset < 0x40 → addr ≠ s.cfg.regBase + offset) →
      (width ≠ 8 ∨ ∀ a, a < s.cfg.memSize → addr ≠ s.cfg.bufBase + a) → step s = .refused .busAccessNotRouted) := by
  refine ⟨fun offset ho haddr => ?_, fun a ha haddr hw => ?_, fun hr hm => ?_⟩
  · subst haddr
    exact step_bus_of_route h (hb.trans (BusAccess.routeTo_window width reg mem ho))
  · subst haddr hw
    exact step_bus_of_route h (hb.trans (BusAccess.routeTo_buffer reg mem hc ha))
  · exact step_bus_of_route_none h (hb.trans (BusAccess.routeTo_eq_none width reg mem hr hm))

/-- Settles O60: a read and a write are routed alike. -/
theorem busAccessesReachTheWindowAndTheBuffer : Obligations.BusAccessesReachTheWindowAndTheBuffer :=
  fun s addr width v _ hc => ⟨fun h => step_bus_of_routeTo hc h (BusAccess.route_read s.cfg addr width),
    fun h => step_bus_of_routeTo hc h (BusAccess.route_write s.cfg addr width v)⟩

end Sys2Proof.Machine
end

section
/-! SUPPORT. The command word: its fields as numbers, the decoder inverted (R82), and the rows of the opcode map that select
a word (R83). It settles O1, O2, O3, O4. -/

namespace Sys2Proof

/-! ### The fields of a word (R81) -/

theorem opcField_toNat (w : Word) : (opcField w).toNat = w.toNat % 256 := by
  simp [opcField]

theorem flagField_eq_true_iff (w : Word) : flagField w = true ↔ w.toNat / 2 ^ 8 % 2 = 1 := by
  simp [flagField, BitVec.getLsbD, Nat.testBit_eq_decide_div_mod_eq]

theorem rsv0Field_toNat (w : Word) : (rsv0Field w).toNat = w.toNat / 2 ^ 9 % 2 ^ 7 := by
  simp [rsv0Field, Nat.shiftRight_eq_div_pow]

theorem imm8Field_toNat (w : Word) : (imm8Field w).toNat = w.toNat / 2 ^ 16 % 256 := by
  simp [imm8Field, Nat.shiftRight_eq_div_pow]

theorem rsv1Field_toNat (w : Word) : (rsv1Field w).toNat = w.toNat / 2 ^ 24 := by
  simp only [rsv1Field, BitVec.extractLsb'_toNat, Nat.shiftRight_eq_div_pow]
  omega

theorem layoutWord_toNat (rsv1 imm8 : BitVec 8) (rsv0 : BitVec 7) (f : Bool) (opc : BitVec 8) :
    (layoutWord rsv1 imm8 rsv0 f opc).toNat =
      opc.toNat + 2 ^ 8 * f.toNat + 2 ^ 9 * rsv0.toNat + 2 ^ 16 * imm8.toNat + 2 ^ 24 * rsv1.toNat := by
  simp only [layoutWord, Machine.toNat_append_eq, BitVec.toNat_ofBool]
  omega

/-- A word is the layout of five fields exactly when they are its fields. -/
theorem eq_layoutWord_iff {w : Word} {rsv1 imm8 : BitVec 8} {rsv0 : BitVec 7} {f : Bool} {opc : BitVec 8} :
    w = layoutWord rsv1 imm8 rsv0 f opc ↔
      rsv1Field w = rsv1 ∧ imm8Field w = imm8 ∧ rsv0Field w = rsv0 ∧ flagField w = f ∧ opcField w = opc := by
  have hf : flagField w = f ↔ w.toNat / 2 ^ 8 % 2 = f.toNat := by
    rw [Bool.eq_iff_iff, flagField_eq_true_iff]
    cases f <;> simp
  rw [hf, ← BitVec.toNat_inj, ← BitVec.toNat_inj (x := rsv1Field w), ← BitVec.toNat_inj (x := imm8Field w),
    ← BitVec.toNat_inj (x := rsv0Field w), ← BitVec.toNat_inj (x := opcField w), layoutWord_toNat, rsv1Field_toNat,
    imm8Field_toNat, rsv0Field_toNat, opcField_toNat]
  have hf2 := f.toNat_lt
  omega

/-! ### The opcode map (R83) -/

/-- OPC of a command (R83). -/
def Instr.opc : Instr → BitVec 8
  | .init => 0x01
  | .keysetup => 0x02
  | .ivsetup => 0x03
  | .setrounds _ => 0x04
  | .seek => 0x05
  | .getctr => 0x06
  | .tune _ => 0x07
  | .xor => 0x08
  | .ks => 0x09

/-- F of a command: the operand of TUNE, 0 elsewhere. -/
def Instr.flag : Instr → Bool
  | .tune f => f
  | _ => false

/-- IMM8 of a command: the operand of SETROUNDS, 0 elsewhere. -/
def Instr.imm8 : Instr → BitVec 8
  | .setrounds r => r
  | _ => 0

theorem encode_eq_layoutWord (i : Instr) : encode i = layoutWord 0 i.imm8 0 i.flag i.opc := by
  cases i <;> rfl

theorem opcodeMap_opc (i : Instr) : opcodeMap i.opc i.flag i.imm8 = some i := by
  cases i <;> rfl

theorem opc_of_opcodeMap {opc imm8 : BitVec 8} {f : Bool} {i : Instr} (h : opcodeMap opc f imm8 = some i) :
    opc = i.opc := by
  apply BitVec.eq_of_toNat_eq
  unfold opcodeMap at h
  split at h <;> cases h <;> assumption

theorem opcodeMap_eq_none_iff {opc imm8 : BitVec 8} {f : Bool} :
    opcodeMap opc f imm8 = none ↔ opc.toNat = 0 ∨ 0x0A ≤ opc.toNat := by
  unfold opcodeMap
  split
  case h_10 => exact iff_of_true rfl (by grind)
  all_goals exact iff_of_false (by simp) (by omega)

/-- The opcode map answers `i` for fields that pass R84's (c) and (d) exactly when they are the fields of `i`. -/
theorem opcodeMap_eq_some_iff_of_legal {opc imm8 : BitVec 8} {f : Bool} {i : Instr} :
    opcodeMap opc f imm8 = some i ∧ (f = true → opc = 0x07) ∧ (imm8 ≠ 0 → opc = 0x04) ↔
      imm8 = i.imm8 ∧ f = i.flag ∧ opc = i.opc := by
  constructor
  · rintro ⟨hmap, hf, himm⟩
    obtain rfl := opc_of_opcodeMap hmap
    cases i <;> simp_all [Instr.opc, Instr.imm8, Instr.flag, opcodeMap]
  · rintro ⟨rfl, rfl, rfl⟩
    refine ⟨opcodeMap_opc i, ?_⟩
    cases i <;> simp [Instr.opc, Instr.imm8, Instr.flag]

/-! ### The decoder (R82) -/

theorem decode_eq_ok_iff {w : Word} {i : Instr} : decode w = .ok i ↔
    (rsv1Field w = 0 ∧ rsv0Field w = 0) ∧ opcodeMap (opcField w) (flagField w) (imm8Field w) = some i ∧
      (flagField w = true → opcField w = 0x07) ∧ (imm8Field w ≠ 0 → opcField w = 0x04) := by
  unfold decode
  cases opcodeMap (opcField w) (flagField w) (imm8Field w) with
  | none => split <;> simp
  | some k => split_ifs <;> simp only [Except.ok.injEq, Option.some.injEq] <;> tauto

/-- R84: a word is illegal when a check of R82 fails. -/
theorem decode_error_iff {w : Word} : (∃ e, decode w = .error e) ↔
    opcodeMap (opcField w) (flagField w) (imm8Field w) = none ∨ (rsv0Field w ≠ 0 ∨ rsv1Field w ≠ 0) ∨
      (flagField w = true ∧ opcField w ≠ 0x07) ∨ (imm8Field w ≠ 0 ∧ opcField w ≠ 0x04) := by
  unfold decode
  cases opcodeMap (opcField w) (flagField w) (imm8Field w) with
  | none => split <;> simp
  | some k => split_ifs <;> simp only [Except.error.injEq, exists_eq', exists_false] <;> tauto

/-- Settles O2: a word that passes R82's checks has its command's fields, and a word is the layout of its fields. -/
theorem decodeAndEncodeAgree : Obligations.DecodeAndEncodeAgree := by
  intro i w
  rw [decode_eq_ok_iff, opcodeMap_eq_some_iff_of_legal, encode_eq_layoutWord, eq_layoutWord_iff]
  tauto

theorem decode_encode (i : Instr) : decode (encode i) = .ok i := (decodeAndEncodeAgree i _).mpr rfl

/-- Settles O1: each word is its command's. -/
theorem commandWordsDecodeToTheirCommands : Obligations.CommandWordsDecodeToTheirCommands :=
  ⟨decode_encode .init, decode_encode .keysetup, decode_encode .ivsetup, decode_encode (.setrounds 12),
    decode_encode (.setrounds 255), decode_encode .seek, decode_encode .getctr, decode_encode (.tune false),
    decode_encode (.tune true), decode_encode .xor, decode_encode .ks⟩

/-- Settles O3: the failing checks of R82, each field as a number. -/
theorem illegalWordsAreExactlyTheFourCases : Obligations.IllegalWordsAreExactlyTheFourCases := by
  intro w
  rw [decode_error_iff, opcodeMap_eq_none_iff, flagField_eq_true_iff]
  simp only [ne_eq, ← BitVec.toNat_inj, opcField_toNat, rsv0Field_toNat, imm8Field_toNat, rsv1Field_toNat]
  rfl

/-! ### The rows of the opcode map (R83) -/

theorem encode_selects_its_row (i : Instr) : Laws.RowOfWord.Statement i := by
  cases i with
  | init => exact Laws.RowOfWord.init
  | keysetup => exact Laws.RowOfWord.keysetup
  | ivsetup => exact Laws.RowOfWord.ivsetup
  | setrounds r => exact Laws.RowOfWord.setrounds r
  | seek => exact Laws.RowOfWord.seek
  | getctr => exact Laws.RowOfWord.getctr
  | tune f => exact Laws.RowOfWord.tune f
  | xor => exact Laws.RowOfWord.xor
  | ks => exact Laws.RowOfWord.ks

/-- A row without free bits selects its match alone. -/
theorem OpcodeRow.eq_of_selects {mnemonic : String} {v w : Word}
    (h : (OpcodeRow.mk mnemonic v 0xFFFFFFFF).selects w = true) : w = v := by
  have hv : w &&& BitVec.allOnes 32 = v := of_decide_eq_true h
  rwa [BitVec.and_allOnes] at hv

/-- Where every bit of a field counts, a masked word fixes the field. -/
theorem extractLsb'_of_mask {w mask v : Word} (h : w &&& mask = v) {start len : Nat}
    (hm : mask.extractLsb' start len = BitVec.allOnes len) : w.extractLsb' start len = v.extractLsb' start len := by
  rw [← h, BitVec.extractLsb'_and, hm, BitVec.and_allOnes]

/-- The SETROUNDS row leaves IMM8 free (R83). -/
theorem eq_encode_setrounds_of_mask {w : Word} (h : w &&& 0xFF00FFFF = 0x00000004) :
    w = encode (.setrounds (imm8Field w)) :=
  have hflag : flagField w = false := by simpa [flagField] using congrArg flagField h
  eq_layoutWord_iff.mpr ⟨extractLsb'_of_mask h (by decide), rfl, extractLsb'_of_mask h (by decide), hflag,
    extractLsb'_of_mask h (by decide)⟩

/-- The TUNE row leaves F free (R83). -/
theorem eq_encode_tune_of_mask {w : Word} (h : w &&& 0xFFFFFEFF = 0x00000007) :
    w = encode (.tune (flagField w)) :=
  eq_layoutWord_iff.mpr ⟨extractLsb'_of_mask h (by decide), extractLsb'_of_mask h (by decide),
    extractLsb'_of_mask h (by decide), rfl, extractLsb'_of_mask h (by decide)⟩

theorem exists_encode_of_selects {w : Word} : ∀ row ∈ opcodeRows, row.selects w = true → ∃ i, w = encode i := by
  simp only [opcodeRows, List.forall_mem_cons]
  exact ⟨fun h => ⟨.init, OpcodeRow.eq_of_selects h⟩, fun h => ⟨.keysetup, OpcodeRow.eq_of_selects h⟩,
    fun h => ⟨.ivsetup, OpcodeRow.eq_of_selects h⟩, fun h => ⟨_, eq_encode_setrounds_of_mask (of_decide_eq_true h)⟩,
    fun h => ⟨.seek, OpcodeRow.eq_of_selects h⟩, fun h => ⟨.getctr, OpcodeRow.eq_of_selects h⟩,
    fun h => ⟨_, eq_encode_tune_of_mask (of_decide_eq_true h)⟩, fun h => ⟨.xor, OpcodeRow.eq_of_selects h⟩,
    fun h => ⟨.ks, OpcodeRow.eq_of_selects h⟩, List.forall_mem_nil _⟩

/-- Settles O4: a legal word is its command's, a selected word is some command's, and the free bits are the fields of R81. -/
theorem opcodeRowsSelectExactlyTheLegalWords : Obligations.OpcodeRowsSelectExactlyTheLegalWords := by
  intro w
  refine ⟨fun i h => ?_, fun e h row hrow => ?_, fun r h => ?_, fun f h => ?_⟩
  · rw [(decodeAndEncodeAgree i w).mp h]
    exact encode_selects_its_row i
  · rw [Bool.eq_false_iff]
    intro hs
    obtain ⟨i, rfl⟩ := exists_encode_of_selects row hrow hs
    simp [decode_encode] at h
  · obtain ⟨_, himm, _⟩ := eq_layoutWord_iff.mp ((decodeAndEncodeAgree _ w).mp h)
    rw [← himm, imm8Field_toNat]
  · obtain ⟨_, _, _, hf, _⟩ := eq_layoutWord_iff.mp ((decodeAndEncodeAgree _ w).mp h)
    rw [← hf, flagField_eq_true_iff]

end Sys2Proof
end

section
/-! SUPPORT. The host write sequence of a line, write by write, and the operands it leaves in the argument registers (R85,
R96). It settles O59. -/

namespace Sys2Proof.Machine

/-! ### The writes of a line -/

theorem steps_succ_of_next {s t : State} (h : step s = .next t) (n : Nat) : steps (n + 1) s = steps n t := by
  simp only [steps, h]

/-- A host-writable register written while the core is idle (R41, R42). -/
theorem steps_writeReg_idle {s : State} (hp : s.phase = .idle) {offset : Nat}
    (ho : offset ∈ [0x00, 0x04, 0x08, 0x0C, 0x10]) {v : Word} {rest : List Turn}
    (h : s.agenda = .host (.writeReg offset 32 v) :: rest) (n : Nat) :
    steps (n + 1) s = steps n (({ s with agenda := rest } : State).storeRegister offset v) := by
  refine steps_succ_of_next ?_ n
  rw [step_writeReg h (hostWritable_offsets offset ho).1, State.writeRegister_of_idle (by exact hp)]

/-- The state after the writes of a line: its operands in the argument registers and its word accepted (R96). -/
def AsmLine.started (l : AsmLine) (s : State) (rest : List Turn) : State :=
  { s with
    a0 := l.a0.getD s.a0, a1 := l.a1.getD s.a1, a2 := l.a2.getD s.a2, a3 := l.a3.getD s.a3,
    phase := .accepted (encode l.instr), agenda := rest, past := s.mem :: s.past }

/-- The write of an argument register stores an operand; a command that ignores the register makes none (R96). -/
theorem steps_argumentWrite {s t : State} (hp : s.phase = .idle) {offset : Nat}
    (ho : offset ∈ [0x04, 0x08, 0x0C, 0x10]) {operand : Option Word} {rest : List Turn}
    (h : s.agenda = (argumentWrite offset operand).map .host ++ rest)
    (ht : operand.elim { s with agenda := rest } (({ s with agenda := rest } : State).storeRegister offset) = t)
    (n : Nat) : steps ((argumentWrite offset operand).length + n) s = steps n t := by
  subst ht
  cases operand with
  | none =>
    have hs : s = { s with agenda := rest } := by rw [← show s.agenda = rest from h]
    rw [argumentWrite, List.length_nil, Nat.zero_add, Option.elim_none, ← hs]
  | some v =>
    rw [argumentWrite, List.length_singleton, Nat.add_comm]
    exact steps_writeReg_idle hp (List.mem_cons_of_mem _ ho) h n

section
variable (s : State) (operand : Option Word)

/-! The register each offset stores an operand in (R40, R42). -/

theorem State.storeOperand_a0 : operand.elim s (s.storeRegister 0x04) = { s with a0 := operand.getD s.a0 } := by
  cases operand <;> rfl
theorem State.storeOperand_a1 : operand.elim s (s.storeRegister 0x08) = { s with a1 := operand.getD s.a1 } := by
  cases operand <;> rfl
theorem State.storeOperand_a2 : operand.elim s (s.storeRegister 0x0C) = { s with a2 := operand.getD s.a2 } := by
  cases operand <;> rfl
theorem State.storeOperand_a3 : operand.elim s (s.storeRegister 0x10) = { s with a3 := operand.getD s.a3 } := by
  cases operand <;> rfl

end

/-- The writes of a line on an idle core: A0, A1, A2, A3, then CMD. -/
theorem AsmLine.steps_writes (l : AsmLine) {s : State} (hp : s.phase = .idle) {rest : List Turn}
    (h : s.agenda = l.writes.map .host ++ rest) : steps l.writes.length s = .next (l.started s rest) := by
  simp only [AsmLine.writes, List.map_append, List.append_assoc] at h
  simp only [AsmLine.writes, List.length_append, Nat.add_assoc]
  refine (steps_argumentWrite hp (by decide) h (State.storeOperand_a0 _ _) _).trans ?_
  refine (steps_argumentWrite (by exact hp) (by decide) rfl (State.storeOperand_a1 _ _) _).trans ?_
  refine (steps_argumentWrite (by exact hp) (by decide) rfl (State.storeOperand_a2 _ _) _).trans ?_
  refine (steps_argumentWrite (by exact hp) (by decide) rfl (State.storeOperand_a3 _ _) _).trans ?_
  exact steps_writeReg_idle (offset := 0x00) (by exact hp) (by decide) rfl 0

/-! ### The operands of a line (R85, R95) -/

/-- The argument registers and the word, as numbers, that a command's line leaves (R83, R85, R86). -/
def AsmCommand.startedFrom (t s : State) : AsmCommand → Prop
  | .init ka na kl nl => t.startedFrom s (some ka) (some na) (some kl) (some nl) 0x01
  | .keysetup ka kl => t.startedFrom s (some ka) none (some kl) none 0x02
  | .ivsetup na nl => t.startedFrom s (some na) none (some nl) none 0x03
  | .setrounds r => t.startedFrom s none none none none (0x04 + 2 ^ 16 * r)
  | .seek n => t.startedFrom s (some (n % 2 ^ 32)) (some (n / 2 ^ 32)) none none 0x05
  | .getctr => t.startedFrom s none none none none 0x06
  | .tune par bpc maxw => t.startedFrom s (some bpc) (some maxw) none none (0x07 + 2 ^ 8 * par)
  | .xor src dst len dl => t.startedFrom s (some src) (some dst) (some len) (some dl) 0x08
  | .ks dst len => t.startedFrom s none (some dst) (some len) none 0x09

theorem argumentIs_none {old : Word} : argumentIs none old ((none : Option Word).getD old) := rfl

theorem argumentIs_of_fits {n : Nat} (h : fitsArgument n = true) {old : Word} :
    argumentIs (some n) old ((argument n).getD old) := by
  have hn : n < 2 ^ 32 := of_decide_eq_true h
  exact (BitVec.toNat_ofNat n 32).trans (Nat.mod_eq_of_lt hn)

/-- A line's state is started from `s` when each operand is right and the word is the command's number. -/
theorem AsmLine.started_startedFrom {l : AsmLine} {s : State} {rest : List Turn} {n0 n1 n2 n3 : Option Nat} {word : Nat}
    (h0 : argumentIs n0 s.a0 (l.a0.getD s.a0)) (h1 : argumentIs n1 s.a1 (l.a1.getD s.a1))
    (h2 : argumentIs n2 s.a2 (l.a2.getD s.a2)) (h3 : argumentIs n3 s.a3 (l.a3.getD s.a3))
    (hw : (encode l.instr).toNat = word) : (l.started s rest).startedFrom s n0 n1 n2 n3 word :=
  ⟨h0, h1, h2, h3, _, hw, rfl⟩

theorem encode_setrounds_toNat {r : Nat} (h : fitsRounds r = true) :
    (encode (.setrounds (BitVec.ofNat 8 r))).toNat = 0x04 + 2 ^ 16 * r := by
  have hr : r < 256 := of_decide_eq_true h
  simp [encode, layoutWord_toNat, Nat.mod_eq_of_lt hr]

theorem encode_tune_toNat {par : Nat} (h : fitsParallelFlag par = true) :
    (encode (.tune (par = 1))).toNat = 0x07 + 2 ^ 8 * par := by
  have hpar : par < 2 := of_decide_eq_true h
  interval_cases par <;> rfl

/-- A well-formed command's line starts the command with its operands. -/
theorem AsmCommand.line_startedFrom {c : AsmCommand} (h : c.wellFormed = true) (s : State) (rest : List Turn) :
    c.startedFrom (c.line.started s rest) s := by
  cases c with
  | init ka na kl nl =>
    simp only [wellFormed, Bool.and_eq_true] at h
    obtain ⟨⟨⟨hka, hna⟩, hkl⟩, hnl⟩ := h
    exact AsmLine.started_startedFrom (argumentIs_of_fits hka) (argumentIs_of_fits hna) (argumentIs_of_fits hkl)
      (argumentIs_of_fits hnl) rfl
  | keysetup ka kl =>
    obtain ⟨hka, hkl⟩ := Bool.and_eq_true_iff.mp h
    exact AsmLine.started_startedFrom (argumentIs_of_fits hka) argumentIs_none (argumentIs_of_fits hkl)
      argumentIs_none rfl
  | ivsetup na nl =>
    obtain ⟨hna, hnl⟩ := Bool.and_eq_true_iff.mp h
    exact AsmLine.started_startedFrom (argumentIs_of_fits hna) argumentIs_none
      (argumentIs_of_fits hnl) argumentIs_none rfl
  | setrounds r =>
    exact AsmLine.started_startedFrom argumentIs_none argumentIs_none argumentIs_none argumentIs_none
      (encode_setrounds_toNat h)
  | seek n =>
    have hn : n < 2 ^ 64 := of_decide_eq_true h
    have hhi : fitsArgument (n / 2 ^ 32) = true := decide_eq_true (by omega)
    exact AsmLine.started_startedFrom (BitVec.toNat_ofNat n 32) (argumentIs_of_fits hhi)
      argumentIs_none argumentIs_none rfl
  | getctr => exact AsmLine.started_startedFrom argumentIs_none argumentIs_none argumentIs_none argumentIs_none rfl
  | tune par bpc maxw =>
    simp only [wellFormed, Bool.and_eq_true] at h
    obtain ⟨⟨hpar, hbpc⟩, hmaxw⟩ := h
    exact AsmLine.started_startedFrom (argumentIs_of_fits hbpc) (argumentIs_of_fits hmaxw)
      argumentIs_none argumentIs_none (encode_tune_toNat hpar)
  | xor src dst len dl =>
    simp only [wellFormed, Bool.and_eq_true] at h
    obtain ⟨⟨⟨hsrc, hdst⟩, hlen⟩, hdl⟩ := h
    exact AsmLine.started_startedFrom (argumentIs_of_fits hsrc) (argumentIs_of_fits hdst) (argumentIs_of_fits hlen)
      (argumentIs_of_fits hdl) rfl
  | ks dst len =>
    obtain ⟨hdst, hlen⟩ := Bool.and_eq_true_iff.mp h
    exact AsmLine.started_startedFrom argumentIs_none (argumentIs_of_fits hdst)
      (argumentIs_of_fits hlen) argumentIs_none rfl

theorem Asm.assemble_eq_some_iff {a : Asm} {ws : List HostAccess} :
    a.assemble = some ws ↔ a.expand.wellFormed = true ∧ a.expand.line.writes = ws := by
  simp [Asm.assemble]

/-- Settles O59: the writes of the line, write by write; a pseudo-command's operands are those of its expansion (R97). -/
theorem hostWriteSequenceStartsTheCommand : Obligations.HostWriteSequenceStartsTheCommand := by
  intro a ws s rest ha hp h
  obtain ⟨hwf, rfl⟩ := Asm.assemble_eq_some_iff.mp ha
  refine ⟨a.expand.line.started s rest, a.expand.line.steps_writes hp h, rfl, ?_⟩
  have hstarted := AsmCommand.line_startedFrom hwf s rest
  cases a with
  | command c => cases c <;> exact hstarted
  | pseudo p => cases p <;> exact hstarted

end Sys2Proof.Machine
end

section
/-! SUPPORT. The Block Transform word by word: what an indexed quarter-round reads and writes, that quarter-rounds on
disjoint indices commute, and each byte of the block (40_permutation.md). It settles O23, O24, O25, O26. -/

namespace Sys2Proof.Machine

/-! ### The indexed quarter-round (R102) -/

/-- Every word after an indexed quarter-round. The last of the four writes to an index is the one that stands. -/
theorem getElem_quarterRoundAt (x : StateWords) (i j k l n : Fin 16) :
    (quarterRoundAt x i j k l)[n] =
      if l = n then (quarterRound x[i] x[j] x[k] x[l]).2.2.2
      else if k = n then (quarterRound x[i] x[j] x[k] x[l]).2.2.1
      else if j = n then (quarterRound x[i] x[j] x[k] x[l]).2.1
      else if i = n then (quarterRound x[i] x[j] x[k] x[l]).1
      else x[n] := by
  simp only [quarterRoundAt, Fin.getElem_fin, Vector.getElem_set, Fin.val_inj]

/-- A word outside the four indices is unchanged. -/
theorem getElem_quarterRoundAt_of_notMem (x : StateWords) {i j k l n : Fin 16} (h : n ∉ [i, j, k, l]) :
    (quarterRoundAt x i j k l)[n] = x[n] := by
  simp only [List.mem_cons, List.not_mem_nil, or_false, not_or, ← ne_eq] at h
  obtain ⟨hi, hj, hk, hl⟩ := h
  rw [getElem_quarterRoundAt, if_neg hl.symm, if_neg hk.symm, if_neg hj.symm, if_neg hi.symm]

/-- Settles O23: of the four writes, the one to the word's own index is the only one that touches it. -/
theorem indexedQuarterRoundTouchesFourWords : Obligations.IndexedQuarterRoundTouchesFourWords := by
  intro x i j k l hd
  simp only [List.nodup_cons, List.mem_cons, List.not_mem_nil, or_false, not_or, ← ne_eq] at hd
  obtain ⟨⟨hij, hik, hil⟩, ⟨hjk, hjl⟩, hkl, -⟩ := hd
  refine ⟨?_, ?_, ?_, ?_, fun n hn => getElem_quarterRoundAt_of_notMem x hn⟩ <;> rw [getElem_quarterRoundAt]
  · rw [if_neg hil.symm, if_neg hik.symm, if_neg hij.symm, if_pos rfl]
  · rw [if_neg hjl.symm, if_neg hjk.symm, if_pos rfl]
  · rw [if_neg hkl.symm, if_pos rfl]
  · rw [if_pos rfl]

/-! ### Quarter-rounds in any order (R108) -/

/-- A word after an indexed quarter-round depends only on the four words it reads and on the word itself. -/
theorem getElem_quarterRoundAt_congr {x y : StateWords} {i j k l n : Fin 16} (h : ∀ m ∈ [i, j, k, l], x[m] = y[m])
    (hn : x[n] = y[n]) : (quarterRoundAt x i j k l)[n] = (quarterRoundAt y i j k l)[n] := by
  rw [getElem_quarterRoundAt, getElem_quarterRoundAt, h i (by simp), h j (by simp), h k (by simp), h l (by simp), hn]

/-- Quarter-rounds that share no index commute: neither writes a word the other reads. -/
theorem quarterRoundAt_comm (x : StateWords) {i j k l i' j' k' l' : Fin 16}
    (hd : [i, j, k, l].Disjoint [i', j', k', l']) :
    quarterRoundAt (quarterRoundAt x i j k l) i' j' k' l' = quarterRoundAt (quarterRoundAt x i' j' k' l') i j k l := by
  have hframe : ∀ m ∈ [i, j, k, l], (quarterRoundAt x i' j' k' l')[m] = x[m] :=
    fun m hm => getElem_quarterRoundAt_of_notMem x (hd hm)
  have hframe' : ∀ m ∈ [i', j', k', l'], (quarterRoundAt x i j k l)[m] = x[m] :=
    fun m hm => getElem_quarterRoundAt_of_notMem x (hd.symm hm)
  refine Vector.ext fun n hn => ?_
  lift n to Fin 16 using hn
  simp only [← Fin.getElem_fin]
  by_cases h : n ∈ [i, j, k, l]
  · rw [getElem_quarterRoundAt_of_notMem _ (hd h)]
    exact (getElem_quarterRoundAt_congr hframe (hframe n h)).symm
  · rw [getElem_quarterRoundAt_of_notMem _ h]
    exact getElem_quarterRoundAt_congr hframe' (getElem_quarterRoundAt_of_notMem x h)

/-- The indexed quarter-round of a group of four indices. -/
def quarterRoundOn (x : StateWords) (g : Fin 16 × Fin 16 × Fin 16 × Fin 16) : StateWords :=
  quarterRoundAt x g.1 g.2.1 g.2.2.1 g.2.2.2

/-- The indices of a group. -/
def groupIndices (g : Fin 16 × Fin 16 × Fin 16 × Fin 16) : List (Fin 16) := [g.1, g.2.1, g.2.2.1, g.2.2.2]

/-- The groups of the column round (R103). -/
def columnGroups : List (Fin 16 × Fin 16 × Fin 16 × Fin 16) :=
  [(0, 4, 8, 12), (1, 5, 9, 13), (2, 6, 10, 14), (3, 7, 11, 15)]

/-- The groups of the diagonal round (R104). -/
def diagonalGroups : List (Fin 16 × Fin 16 × Fin 16 × Fin 16) :=
  [(0, 5, 10, 15), (1, 6, 11, 12), (2, 7, 8, 13), (3, 4, 9, 14)]

theorem columnRound_eq_foldl (x : StateWords) : columnRound x = columnGroups.foldl quarterRoundOn x := rfl

theorem diagonalRound_eq_foldl (x : StateWords) : diagonalRound x = diagonalGroups.foldl quarterRoundOn x := rfl

theorem columnGroups_nodup : (columnGroups.flatMap groupIndices).Nodup := by
  decide

theorem diagonalGroups_nodup : (diagonalGroups.flatMap groupIndices).Nodup := by
  decide

/-- Groups in which no index stands twice give the same words in any order. -/
theorem foldl_quarterRoundOn_perm {gs order : List (Fin 16 × Fin 16 × Fin 16 × Fin 16)}
    (hd : (gs.flatMap groupIndices).Nodup) (hp : order.Perm gs) (x : StateWords) :
    order.foldl quarterRoundOn x = gs.foldl quarterRoundOn x := by
  have hdisjoint : gs.Pairwise (Function.onFun List.Disjoint groupIndices) := (List.nodup_flatMap.mp hd).2
  have : Std.Symm (Function.onFun List.Disjoint groupIndices) := ⟨fun _ _ h => h.symm⟩
  refine (hp.symm.foldl_eq' (fun g hg h hh y => ?_) x).symm
  by_cases hgh : g = h
  · rw [hgh]
  · exact quarterRoundAt_comm y (hdisjoint.forall hg hh hgh)

/-- Settles O24: the groups of a round share no index, so their quarter-rounds commute. -/
theorem quarterRoundsOfOneRoundCommute : Obligations.QuarterRoundsOfOneRoundCommute := by
  refine fun x order => ⟨fun hp => ?_, fun hp => ?_⟩
  · rw [columnRound_eq_foldl]
    exact foldl_quarterRoundOn_perm columnGroups_nodup hp x
  · rw [diagonalRound_eq_foldl]
    exact foldl_quarterRoundOn_perm diagonalGroups_nodup hp x

/-! ### The bytes of the block (R106, R107, R109) -/

theorem Lane.run_x (n : Nat) (l : Lane) : (l.run n).x = doubleRound^[n] l.x := by
  induction n generalizing l with
  | zero => rfl
  | succ n ih => exact ih l.step

@[simp] theorem getElem_feedForward (x s : StateWords) {n : Nat} (h : n < 16) :
    (feedForward x s)[n] = x[n] + s[n] :=
  Vector.getElem_zipWith h

@[simp] theorem getElem_serialise (y : StateWords) {t : Nat} (h : t < 64) :
    (serialise y)[t] = serByte (y[t / 4]'(by omega)) (t % 4) := by
  simp [serialise]

/-- Output byte t of the Block Transform is byte t mod 4 of word t / 4 after the feed-forward. -/
theorem getElem_blockTransform (s : StateWords) (r : BitVec 8) {t : Nat} (h : t < 64) :
    (blockTransform s r)[t] =
      serByte ((doubleRound^[r.toNat / 2] s)[t / 4]'(by omega) + s[t / 4]'(by omega)) (t % 4) := by
  simp only [blockTransform, getElem_serialise, getElem_feedForward, Lane.run_x, Lane.load]

theorem serByte_eq_shift (w : Word) (j : Nat) : serByte w j = (w >>> (8 * j)).setWidth 8 :=
  BitVec.setWidth_ushiftRight_eq_extractLsb.symm

/-- Settles O25: byte 4i + j lies in word i, at place j. -/
theorem blockBytesAreTheFedForwardWords : Obligations.BlockBytesAreTheFedForwardWords := by
  intro s r i j
  have hword : (4 * i.val + j.val) / 4 = i := by omega
  have hbyte : (4 * i.val + j.val) % 4 = j := by omega
  simp only [getElem_blockTransform, hword, hbyte, serByte_eq_shift, Fin.getElem_fin]

/-! ### The zero state (R110) -/

theorem quarterRound_zero : quarterRound 0 0 0 0 = (0, 0, 0, 0) := by
  decide

/-- An indexed quarter-round keeps the zero working array. -/
@[simp] theorem quarterRoundAt_zero (i j k l : Fin 16) :
    quarterRoundAt (Vector.replicate 16 0) i j k l = Vector.replicate 16 0 := by
  simp only [quarterRoundAt, Fin.getElem_fin, Vector.getElem_replicate, quarterRound_zero, Vector.set_replicate_self]

theorem doubleRound_zero : doubleRound (Vector.replicate 16 0) = Vector.replicate 16 0 := by
  simp only [doubleRound, columnRound, diagonalRound, quarterRoundAt_zero]

theorem serByte_zero (j : Nat) : serByte 0 j = 0 := BitVec.extractLsb'_zero

/-- Settles O26: the zero working array is a fixed point of the double-round, and the feed-forward adds 0 to 0. -/
theorem zeroStateGivesTheZeroBlock : Obligations.ZeroStateGivesTheZeroBlock := by
  intro r t
  have hrounds : doubleRound^[r.toNat / 2] (Vector.replicate 16 0) = Vector.replicate 16 0 :=
    Function.iterate_fixed doubleRound_zero _
  simp only [Fin.getElem_fin, getElem_blockTransform, hrounds, Vector.getElem_replicate, add_zero, serByte_zero]

end Sys2Proof.Machine
end

section
/-! SUPPORT. What the context commands load and leave: the bytes of a loaded word, the key and the nonce as bytes of buffer
memory, and each command's effect as one record update. It settles O27 to O34. -/

namespace Sys2Proof.Machine

/-! ### When a command completes -/

/-- A command whose check passes has its effect; but for INIT it takes FATAL = 0 (R231, R233). -/
theorem exec_of_check_none {i : Instr} {s : State} (hf : i = .init ∨ s.fatal = false) (hc : s.checkOf i = none) :
    exec i s = .next (s.effectOf i) := by
  have hrun : ¬(i ≠ .init ∧ s.fatal = true) := by simpa [or_iff_not_imp_left] using hf
  simp [exec_eq, State.afterCommand, hrun, hc]

/-- A command whose check applies rejects with its cause (R229, R233). -/
theorem exec_of_check_some {i : Instr} {s : State} {c : Cause} (hf : i = .init ∨ s.fatal = false)
    (hc : s.checkOf i = some c) : exec i s = .next (s.reject c) := by
  have hrun : ¬(i ≠ .init ∧ s.fatal = true) := by simpa [or_iff_not_imp_left] using hf
  simp [exec_eq, State.afterCommand, hrun, hc]

/-- Every cause a check answers is of the fatal class (R225). -/
theorem State.isFatal_of_checkOf {s : State} {i : Instr} {c : Cause} (h : s.checkOf i = some c) : c.isFatal = true := by
  cases i with
  | seek => cases h
  | getctr => cases h
  | _ =>
    simp only [State.checkOf, State.checkInit, State.checkKeysetup, State.checkIvsetup, checkSetrounds, State.checkTune,
      State.checkXor, State.checkKs] at h
    split_ifs at h <;> cases h <;> rfl

/-- A command that ends with FATAL = 0 passed its check and had its effect. -/
theorem exec_completes_of_fatal_clear {i : Instr} {s t : State} (h : exec i s = .next t) (hf : t.fatal = false) :
    s.checkOf i = none ∧ t = s.effectOf i := by
  rcases exec_cases h with ⟨hs, rfl⟩ | ⟨_, ⟨c, hc, rfl⟩ | hdone⟩
  · simp [hs] at hf
  · simp [State.reject, State.isFatal_of_checkOf hc] at hf
  · exact hdone

/-- A command that does not complete leaves the engine, KEYSET and IVSET (R229, R231). -/
theorem exec_keeps_context_or_completes {i : Instr} {s t : State} (h : exec i s = .next t) :
    (t.toEngine = s.toEngine ∧ t.keyset = s.keyset ∧ t.ivset = s.ivset) ∨ t = s.effectOf i := by
  rcases exec_cases h with ⟨_, rfl⟩ | ⟨_, ⟨c, _, rfl⟩ | ⟨_, rfl⟩⟩
  · exact .inl ⟨rfl, rfl, rfl⟩
  · exact .inl ⟨rfl, rfl, rfl⟩
  · exact .inr rfl

/-- A command that finishes with OK leaves FATAL as it is (R228). -/
theorem State.finish_ok (s : State) (r0 r1 : Word) :
    s.finish .ok r0 r1 = { s with cause := .ok, res0 := r0, res1 := r1, phase := .idle } := by
  simp [State.finish, Cause.isFatal]

/-! ### The bytes of a loaded word (R64) -/

/-- Byte `j` of `LE32(b, i)` is byte `i + j` of `b`. -/
theorem byte_le32 (b : List Byte) (i : Nat) {j : Nat} (hj : j < 4) :
    (le32 b i >>> (8 * j)).setWidth 8 = b.getD (i + j) 0 := by
  have h0 := (b.getD i 0).isLt
  have h1 := (b.getD (i + 1) 0).isLt
  have h2 := (b.getD (i + 2) 0).isLt
  have h3 := (b.getD (i + 3) 0).isLt
  apply BitVec.eq_of_toNat_eq
  rw [BitVec.toNat_setWidth, BitVec.toNat_ushiftRight, Nat.shiftRight_eq_div_pow, le32]
  simp only [toNat_append_eq]
  interval_cases j
  · rw [Nat.add_zero i]; omega
  all_goals omega

theorem Memory.getD_readBytes (m : Memory) (a : Nat) {n j : Nat} (hj : j < n) :
    (m.readBytes a n).getD j 0 = m.read (a + j) := by
  rw [List.getD_eq_getElem?_getD, Memory.getElem?_readBytes m a hj, Option.getD_some]

/-- Byte `j` of KEY[i]: a 16-byte key stands in both halves of KEY (R115, R131). -/
theorem byte_keyWord (k : List Byte) (long : Bool) (i : Fin 8) (j : Fin 4) :
    (keyWord k long i.val >>> (8 * j.val)).setWidth 8 =
      k.getD ((4 * i.val + j.val) % (if long then 32 else 16)) 0 := by
  unfold keyWord
  split
  next h =>
    rw [byte_le32 _ _ j.isLt, Nat.mod_eq_of_lt]
    rcases h with h | h
    · split <;> omega
    · rw [if_pos h]; omega
  next h =>
    rw [not_or] at h
    rw [byte_le32 _ _ j.isLt, if_neg h.2]
    congr 1
    omega

/-- `LoadKey` from memory, byte by byte (R131). -/
theorem State.byte_loadKey (s : State) (m : Memory) (a : Nat) {n : Word} (hn : n = 16 ∨ n = 32) (i : Fin 8) (j : Fin 4) :
    ((s.loadKey (m.readBytes a n.toNat) (n.toNat = 32)).key[i] >>> (8 * j.val)).setWidth 8 =
      m.read (a + (4 * i.val + j.val) % n.toNat) := by
  have hlen : (if decide (n.toNat = 32) = true then 32 else 16) = n.toNat := by
    rcases hn with rfl | rfl <;> rfl
  have hpos : 0 < n.toNat := by rcases hn with rfl | rfl <;> decide
  simp only [State.loadKey_toEngine, Fin.getElem_fin, Vector.getElem_ofFn]
  rw [byte_keyWord, hlen, Memory.getD_readBytes m a (Nat.mod_lt _ hpos)]

/-- `LoadNonce` from memory, byte by byte (R133). -/
theorem State.byte_loadNonce (s : State) (m : Memory) (a : Nat) (i : Fin 2) (j : Fin 4) :
    ((s.loadNonce (m.readBytes a 8)).nonce[i] >>> (8 * j.val)).setWidth 8 = m.read (a + 4 * i.val + j.val) := by
  have hword : (s.loadNonce (m.readBytes a 8)).nonce[i] = le32 (m.readBytes a 8) (4 * i.val) := by
    match i with
    | 0 => rfl
    | 1 => rfl
  rw [hword, byte_le32 _ _ j.isLt, Memory.getD_readBytes m a (by omega), Nat.add_assoc]

/-- `LoadKey` as one update, the key length given as a word (R114, R131). -/
theorem State.loadKey_eq (s : State) (k : List Byte) (n : Word) :
    s.loadKey k (n.toNat = 32) = { s with
      key := (s.loadKey k (n.toNat = 32)).key
      const := if n = 32 then sigma else tau
      key256 := n = 32
      keyset := true } := by
  have hlong : n.toNat = 32 ↔ n = 32 := by rw [← BitVec.toNat_inj]; rfl
  simp only [State.loadKey, hlong, decide_eq_true_eq]

/-! ### The checks of valid operands -/

theorem keyLengthOk_of_eq {n : Word} (h : n = 16 ∨ n = 32) : keyLengthOk n.toNat = true := by
  rcases h with rfl | rfl <;> rfl

theorem State.checkInit_eq_none {s : State} (hk : s.a2 = 16 ∨ s.a2 = 32) (hn : s.a3 = 8)
    (hkey : s.a0.toNat + s.a2.toNat ≤ s.cfg.memSize) (hnonce : s.a1.toNat + 8 ≤ s.cfg.memSize) :
    s.checkInit = none := by
  simp [State.checkInit, keyLengthOk_of_eq hk, hn, inMemory_iff.mpr (.inr hkey), inMemory_iff.mpr (.inr hnonce)]

theorem State.checkKeysetup_eq_none {s : State} (hk : s.a2 = 16 ∨ s.a2 = 32)
    (hkey : s.a0.toNat + s.a2.toNat ≤ s.cfg.memSize) : s.checkKeysetup = none := by
  simp [State.checkKeysetup, keyLengthOk_of_eq hk, inMemory_iff.mpr (.inr hkey)]

theorem State.checkIvsetup_eq_none {s : State} (hn : s.a2 = 8) (hnonce : s.a0.toNat + 8 ≤ s.cfg.memSize) :
    s.checkIvsetup = none := by
  simp [State.checkIvsetup, hn, inMemory_iff.mpr (.inr hnonce)]

/-! ### The commands that load -/

/-- Settles O27: INIT passes its checks, and its effect is LoadKey, LoadNonce and SeekTo(0) with FATAL and OVR cleared. -/
theorem initConstructsTheContext : Obligations.InitConstructsTheContext := by
  intro s hk hn hkey hnonce
  refine ⟨s.effectOf .init, exec_of_check_none (.inl rfl) (State.checkInit_eq_none hk hn hkey hnonce),
    fun i j => s.byte_loadKey s.mem s.a0.toNat hk i j, fun i j => s.byte_loadNonce s.mem s.a1.toNat i j, ?_⟩
  simp only [State.effectOf, State.construct, State.finish_ok]
  rw [State.loadKey_eq]
  rfl

/-- Settles O28: KEYSETUP passes its checks, and its effect is LoadKey. -/
theorem keysetupLoadsTheKey : Obligations.KeysetupLoadsTheKey := by
  intro s hf hk hkey
  refine ⟨s.effectOf .keysetup, exec_of_check_none (.inr hf) (State.checkKeysetup_eq_none hk hkey),
    fun i j => s.byte_loadKey s.mem s.a0.toNat hk i j, ?_⟩
  simp only [State.effectOf, State.finish_ok]
  rw [State.loadKey_eq]
  rfl

/-- Settles O29: IVSETUP passes its checks, and its effect is LoadNonce and SeekTo(0). -/
theorem ivsetupLoadsTheNonceAndRewinds : Obligations.IvsetupLoadsTheNonceAndRewinds := by
  intro s hf hn hnonce
  refine ⟨s.effectOf .ivsetup, exec_of_check_none (.inr hf) (State.checkIvsetup_eq_none hn hnonce),
    fun i j => s.byte_loadNonce s.mem s.a0.toNat i j, ?_⟩
  simp only [State.effectOf, State.finish_ok]
  rfl

/-! ### The commands that load nothing -/

theorem roundsOk_iff {r : BitVec 8} : roundsOk r = true ↔ r.toNat ∈ [8, 12, 20] := by
  simp [roundsOk, ← BitVec.toNat_inj, or_assoc]

/-- Settles O30: the one check of SETROUNDS is the list of round counts. -/
theorem setroundsWritesLegalRoundCountsOnly : Obligations.SetroundsWritesLegalRoundCountsOnly := by
  intro s r hf
  rw [← roundsOk_iff]
  constructor
  · intro hr
    rw [exec_of_check_none (i := .setrounds r) (.inr hf) (if_pos hr), State.effectOf, State.finish_ok]
  · intro hr
    rw [exec_of_check_some (i := .setrounds r) (.inr hf) (if_neg hr), State.reject_invalidRoundCount]

/-- Settles O31: SEEK has no check, and A1:A0 is the two words put together. -/
theorem seekRepositionsToTheBlock : Obligations.SeekRepositionsToTheBlock := by
  intro s hf
  refine ⟨s.effectOf .seek, exec_of_check_none (.inr hf) rfl, toNat_append_eq s.a1 s.a0, ?_⟩
  simp only [State.effectOf, State.finish_ok]
  rfl

/-- CTR from its two halves (R26). -/
theorem Engine.ctr_halves (e : Engine) : e.ctrHi.toNat * 2 ^ 32 + e.ctrLo.toNat = e.ctr.toNat := by
  have hlt := e.ctr.isLt
  simp only [Engine.ctrHi, Engine.ctrLo, BitVec.extractLsb'_toNat, Nat.shiftRight_eq_div_pow]
  omega

/-- Settles O32: RES1:RES0 is CTR_HI:CTR_LO. -/
theorem getctrReturnsTheCounter : Obligations.GetctrReturnsTheCounter := by
  intro s hf
  exact ⟨s.effectOf .getctr, exec_of_check_none (.inr hf) rfl, s.toEngine.ctr_halves, s.finish_ok _ _⟩

/-- Settles O33: the one check of TUNE is for a zero. -/
theorem tuneWritesTheTuningRegisters : Obligations.TuneWritesTheTuningRegisters := by
  intro s f hf
  constructor
  · intro h0 h1
    rw [exec_of_check_none (i := .tune f) (.inr hf) (if_neg (not_or.mpr ⟨h0, h1⟩)), State.effectOf, State.finish_ok]
  · intro hz
    rw [exec_of_check_some (i := .tune f) (.inr hf) (if_pos hz), State.reject_invalidTuning]

/-! ### The stream position (R138) -/

/-- No context command writes OUTBUF or buffer memory. -/
theorem State.effectOf_outbuf_mem (s : State) {i : Instr} (hx : i ≠ .xor) (hk : i ≠ .ks) :
    (s.effectOf i).outbuf = s.outbuf ∧ (s.effectOf i).mem = s.mem := by
  cases i with
  | xor => exact absurd rfl hx
  | ks => exact absurd rfl hk
  | _ => exact ⟨rfl, rfl⟩

/-- KEYSETUP, SETROUNDS, GETCTR and TUNE leave the position and its flags. -/
theorem State.effectOf_keeps_position (s : State) {i : Instr} (hx : i ≠ .xor) (hk : i ≠ .ks) (hi : i ≠ .init)
    (hv : i ≠ .ivsetup) (hs : i ≠ .seek) :
    (s.effectOf i).ctr = s.ctr ∧ (s.effectOf i).next = s.next ∧ (s.effectOf i).exh = s.exh ∧
      (s.effectOf i).term = s.term ∧ (s.effectOf i).gen = s.gen := by
  cases i with
  | xor => exact absurd rfl hx
  | ks => exact absurd rfl hk
  | init => exact absurd rfl hi
  | ivsetup => exact absurd rfl hv
  | seek => exact absurd rfl hs
  | _ => exact ⟨rfl, rfl, rfl, rfl, rfl⟩

/-- Settles O34: a command that does not complete keeps the engine, and the effects are compared one by one. -/
theorem whichCommandsMoveTheStreamPosition : Obligations.WhichCommandsMoveTheStreamPosition := by
  refine ⟨fun i s t hx hk h => ?_, fun i s t hx hk hi hv hs h => ?_, fun i s t hi h hf => ?_⟩
  · rcases exec_keeps_context_or_completes h with ⟨he, _⟩ | rfl
    · simp only [he, implies_true, and_self]
    · obtain ⟨hout, hmem⟩ := s.effectOf_outbuf_mem hx hk
      exact ⟨hout, fun a => by rw [hmem]⟩
  · rcases exec_keeps_context_or_completes h with ⟨he, _⟩ | rfl
    · simp only [he, and_self]
    · exact s.effectOf_keeps_position hx hk hi hv hs
  · obtain ⟨_, rfl⟩ := exec_completes_of_fatal_clear h hf
    rcases hi with rfl | rfl | rfl <;> exact ⟨rfl, rfl, rfl, rfl, rfl⟩

end Sys2Proof.Machine
end

section
/-! SUPPORT. The lifecycle state after each command (R139): what SeqRun does to EXH and GEN, counted against the engine's
capacity. It settles O52. -/

namespace Sys2Proof.Machine

/-! ### EXH, TERM and GEN after SeqRun -/

theorem Engine.xorByte_next {e : Engine} (h : e.next ≠ 64) (src dst : Nat) (zero : Bool) (i : Nat) :
    (e.xorByte src dst zero i).next.val = e.next.val + 1 := by
  rw [Engine.xorByte_of_lt (by omega)]

/-- SeqRun never clears EXH. -/
theorem seqRun_exh_of_exh {e : Engine} (h : e.exh = true) (src dst : Nat) (zero : Bool) (n i : Nat) :
    (seqRun src dst zero n i e).engine.exh = true :=
  seqRun_induction (P := fun f => f.exh = true) (fun f hf _ _ => by simp [hf]) (fun f j hf _ => by simpa using hf)
    (fun f hf _ _ => hf) n i e h

/-- A SeqRun that needs no more than the buffered bytes leaves EXH and GEN (R170). -/
theorem seqRun_flags_of_buffered {src dst n i : Nat} {zero : Bool} {e : Engine} (h : n ≤ 64 - e.next.val) :
    (seqRun src dst zero n i e).engine.exh = e.exh ∧ (seqRun src dst zero n i e).engine.gen = e.gen := by
  induction n generalizing i e with
  | zero => exact ⟨rfl, rfl⟩
  | succ n ih =>
    have hn : e.next ≠ 64 := by omega
    have hnext := Engine.xorByte_next hn src dst zero i
    rw [seqRun_buffered hn]
    simpa using ih (e := e.xorByte src dst zero i) (i := i + 1) (by omega)

/-- With EXH = 0, a SeqRun that needs a block sets GEN (R171), and no step clears it. -/
theorem seqRun_gen {src dst n i : Nat} {zero : Bool} {e : Engine} (he : e.exh = false) (h : 64 - e.next.val < n) :
    (seqRun src dst zero n i e).engine.gen = true := by
  induction n generalizing i e with
  | zero => omega
  | succ n ih =>
    by_cases hn : e.next = 64
    · rw [seqRun_generates hn he]
      exact seqRun_induction (P := fun f => f.gen = true) (fun _ _ _ _ => rfl) (fun f j hf _ => by simpa using hf)
        (fun _ hf _ _ => hf) n (i + 1) _ (by simp)
    · have hnext := Engine.xorByte_next hn src dst zero i
      rw [seqRun_buffered hn]
      exact ih (by simpa using he) (by omega)

/-- A buffered byte used up is one byte of capacity. -/
theorem Engine.capacity_xorByte {e : Engine} (h : e.next ≠ 64) (src dst : Nat) (zero : Bool) (i : Nat) :
    (e.xorByte src dst zero i).capacity + 1 = e.capacity := by
  have hnext := Engine.xorByte_next h src dst zero i
  simp only [Engine.capacity, hnext, Engine.xorByte_exh, Engine.xorByte_ctr]
  omega

/-- With EXH = 0, the block at index 2^64 − 1, and no other, sets EXH (R171). -/
theorem Engine.generateBlock_exh_of_clear {e : Engine} (he : e.exh = false) :
    e.generateBlock.exh = decide (e.ctr.toNat = 2 ^ 64 - 1) := by
  have hwrap : e.ctr + 1 = 0 ↔ e.ctr.toNat = 2 ^ 64 - 1 := by bv_omega
  simp only [Engine.generateBlock_exh, he, Bool.false_or, hwrap]

/-- Generating a block other than the last moves its 64 bytes into the buffer (R171). -/
theorem Engine.capacity_generateBlock {e : Engine} (hn : e.next = 64) (he : e.exh = false)
    (hc : e.ctr.toNat ≠ 2 ^ 64 - 1) : e.generateBlock.capacity = e.capacity := by
  have hnext : e.next.val = 64 := congrArg Fin.val hn
  have hctr : (e.ctr + 1).toNat = e.ctr.toNat + 1 := by bv_omega
  have hlt := e.ctr.isLt
  simp only [Engine.capacity, Engine.generateBlock_exh_of_clear he, Engine.generateBlock_next, Engine.generateBlock_ctr,
    hctr, hnext, he, hc, decide_false, Bool.false_eq_true, if_false, Fin.val_zero]
  omega

/-- With EXH = 0, SeqRun sets EXH exactly when it needs the block at index 2^64 − 1, the last the engine can produce
(R171). -/
theorem seqRun_exh_iff {src dst n i : Nat} {zero : Bool} {e : Engine} (he : e.exh = false) :
    (seqRun src dst zero n i e).engine.exh = true ↔ e.capacity < n + 64 := by
  induction n generalizing i e with
  | zero =>
    have hctr := e.ctr.isLt
    refine iff_of_false (by simp [he]) ?_
    simp only [Engine.capacity, he, Bool.false_eq_true, if_false]
    omega
  | succ n ih =>
    by_cases hn : e.next = 64
    · have hnext : e.next.val = 64 := congrArg Fin.val hn
      have hexh := Engine.generateBlock_exh_of_clear he
      rw [seqRun_generates hn he]
      by_cases hlast : e.ctr.toNat = 2 ^ 64 - 1
      · refine iff_of_true (seqRun_exh_of_exh (by simp only [Engine.xorByte_exh, hexh, hlast, decide_true]) ..) ?_
        simp only [Engine.capacity, he, hnext, hlast, Bool.false_eq_true, if_false]
        omega
      · have hcap := Engine.capacity_xorByte (e := e.generateBlock) (by simp) src dst zero i
        rw [Engine.capacity_generateBlock hn he hlast] at hcap
        rw [ih (by simp only [Engine.xorByte_exh, hexh, hlast, decide_false]), ← hcap]
        omega
    · rw [seqRun_buffered hn, ih (by simpa using he), ← Engine.capacity_xorByte hn src dst zero i]
      omega

/-- With EXH = 1, a SeqRun that needs a block stops with KeystreamExhausted and sets TERM (R173). -/
theorem seqRun_exhausts {src dst n i : Nat} {zero : Bool} {e : Engine} (he : e.exh = true) (h : 64 - e.next.val < n) :
    (seqRun src dst zero n i e).cause = .keystreamExhausted ∧ (seqRun src dst zero n i e).engine.term = true := by
  induction n generalizing i e with
  | zero => omega
  | succ n ih =>
    by_cases hn : e.next = 64
    · rw [seqRun_exhausted hn he]
      exact ⟨rfl, rfl⟩
    · have hnext := Engine.xorByte_next hn src dst zero i
      rw [seqRun_buffered hn]
      exact ih (by simpa using he) (by omega)

/-! ### The transition table -/

/-- An XOR or KS that completes ran on a configured context: it is SeqRun over A2 bytes (R176 to R178). -/
theorem exec_generates {i : Instr} {s t : State} (hi : i = .xor ∨ i = .ks) (h : exec i s = .next t)
    (hf : t.fatal = false) :
    (s.keyset = true ∧ s.ivset = true) ∧ ∃ src dst zero, t = s.generate src dst s.a2.toNat zero := by
  obtain ⟨hc, rfl⟩ := exec_completes_of_fatal_clear h hf
  rcases hi with rfl | rfl
  · exact ⟨(State.checkXor_none hc).1, _, _, _, rfl⟩
  · exact ⟨(State.checkKs_none hc).1, _, _, _, rfl⟩

/-- The lifecycle state of a configured context (R54). -/
theorem State.lifecycle_of_configured {s : State} (hk : s.keyset = true ∧ s.ivset = true) :
    s.lifecycle = if s.exh then .exhausted else if s.gen then .active else .initialized := by
  simp [State.lifecycle, lifecycleOf, hk.1, hk.2]

theorem State.lifecycle_eq_exhausted_iff {s : State} (hk : s.keyset = true ∧ s.ivset = true) :
    s.lifecycle = .exhausted ↔ s.exh = true := by
  rw [State.lifecycle_of_configured hk]
  cases s.exh <;> cases s.gen <;> simp

/-- The lifecycle state with EXH = GEN = 0 (R54). -/
theorem lifecycleOf_rewound (keyset ivset : Bool) :
    lifecycleOf keyset ivset false false = if keyset && ivset then .initialized else .unconfigured := by
  cases keyset <;> cases ivset <;> rfl

/-- A command whose effect keeps the lifecycle state keeps it when it is rejected too (R229, R231). -/
theorem exec_keeps_lifecycle {i : Instr} {s t : State} (h : exec i s = .next t)
    (heffect : (s.effectOf i).lifecycle = s.lifecycle) : t.lifecycle = s.lifecycle := by
  rcases exec_keeps_context_or_completes h with ⟨he, hk, hv⟩ | rfl
  · rw [State.lifecycle, State.lifecycle, he, hk, hv]
  · exact heffect

/-- A SeqRun from EXH = 0 leaves the lifecycle state, or makes it ACTIVE or EXHAUSTED by the blocks it generates. -/
theorem State.generate_lifecycle {s : State} (hk : s.keyset = true ∧ s.ivset = true) (he : s.exh = false)
    (src dst len : Nat) (zero : Bool) :
    (s.generate src dst len zero).lifecycle =
      if len ≤ 64 - s.next.val then s.lifecycle
      else if len - (64 - s.next.val) ≤ 64 * (2 ^ 64 - 1 - s.ctr.toNat) then .active else .exhausted := by
  have hctr := s.ctr.isLt
  have hlife : (s.generate src dst len zero).lifecycle = lifecycleOf true true
      (seqRun src dst zero len 0 s.toEngine).engine.exh (seqRun src dst zero len 0 s.toEngine).engine.gen :=
    congrArg₂ (lifecycleOf · · _ _) hk.1 hk.2
  have hexh := seqRun_exh_iff (src := src) (dst := dst) (n := len) (i := 0) (zero := zero) he
  simp only [Engine.capacity, he, Bool.false_eq_true, if_false] at hexh
  rw [hlife]
  split_ifs with hb hlast
  · obtain ⟨hsame, hgen⟩ := seqRun_flags_of_buffered (src := src) (dst := dst) (i := 0) (zero := zero) hb
    rw [hsame, hgen, State.lifecycle, hk.1, hk.2]
  · have hclear : (seqRun src dst zero len 0 s.toEngine).engine.exh = false := by
      rw [← Bool.not_eq_true, hexh]; omega
    rw [hclear, seqRun_gen he (Nat.lt_of_not_le hb)]
    rfl
  · rw [hexh.mpr (by omega)]
    rfl

/-- Settles O52: the commands that rewind clear EXH and GEN, an unconfigured context has both clear (R39), and XOR and KS
are SeqRun. -/
theorem lifecycleFollowsTheTransitionTable : Obligations.LifecycleFollowsTheTransitionTable := by
  intro s hinv
  refine ⟨fun t h hf => ?init, fun hs => ⟨fun t h => ?seek, fun t h hf => ?ivsetup, fun t h hf => ?keysetup,
    fun t r h => exec_keeps_lifecycle h rfl, fun t f h => exec_keeps_lifecycle h rfl,
    fun t h => exec_keeps_lifecycle h rfl, fun t i hi h hf hl => ?generates, fun t i hi h hf hl => ?exhausted⟩⟩
  case init =>
    obtain ⟨_, rfl⟩ := exec_completes_of_fatal_clear h hf
    rfl
  case seek =>
    rw [exec_of_check_none (.inr hs) rfl] at h
    cases h
    exact lifecycleOf_rewound s.keyset s.ivset
  case ivsetup =>
    obtain ⟨_, rfl⟩ := exec_completes_of_fatal_clear h hf
    exact (lifecycleOf_rewound s.keyset true).trans (by rw [Bool.and_true])
  case keysetup =>
    obtain ⟨_, rfl⟩ := exec_completes_of_fatal_clear h hf
    change lifecycleOf true s.ivset s.exh s.gen = _
    cases hk : s.keyset with
    | true => rw [if_pos rfl, State.lifecycle, hk]
    | false =>
      obtain ⟨hgen, hexh⟩ := hinv.unconfigured (.inl hk)
      rw [hgen, hexh, lifecycleOf_rewound, Bool.true_and, if_neg Bool.false_ne_true]
  case generates =>
    obtain ⟨hk, src, dst, zero, rfl⟩ := exec_generates hi h hf
    exact State.generate_lifecycle hk (by simpa [State.lifecycle_eq_exhausted_iff hk] using hl) ..
  case exhausted =>
    obtain ⟨hk, src, dst, zero, rfl⟩ := exec_generates hi h hf
    have he := (State.lifecycle_eq_exhausted_iff hk).mp hl
    exact ⟨(State.lifecycle_eq_exhausted_iff (s := s.generate src dst s.a2.toNat zero) hk).mpr (seqRun_exh_of_exh he ..),
      fun hn => seqRun_exhausts he hn⟩

end Sys2Proof.Machine
end

section
/-! SUPPORT. The keystream as the engine produces it, in closed form: one byte moves the engine to the next byte of its
stream, and a SeqRun writes the source XOR the bytes ahead, as far as the capacity reaches (42_keystream.md R170 to R174). It
settles O36. -/

namespace Sys2Proof.Machine

/-! ### The block generation trigger (R171) -/

/-- Settles O36: both counters are their halves put together, and the increment carries from the low one. -/
theorem generateBlockCarriesIntoTheHighWord : Obligations.GenerateBlockCarriesIntoTheHighWord := by
  intro e he
  have hold := Engine.ctr_halves e
  have hnew := Engine.ctr_halves e.generateBlock
  rw [Engine.generateBlock_ctr] at hnew
  have hexh : e.generateBlock.exh = true ↔ e.ctr.toNat = 2 ^ 64 - 1 := by
    rw [Engine.generateBlock_exh_of_clear he, decide_eq_true_iff]
  refine ⟨by bv_omega, ?_, by rw [hexh]; bv_omega, hexh, rfl, rfl⟩
  split <;> bv_omega

/-! ### A byte of the stream (R170, R172) -/

/-- The engine with a byte in its buffer: where the buffered block is used up, the next one is generated. -/
def Engine.refill (e : Engine) : Engine := if e.next = 64 then e.generateBlock else e

theorem Engine.refill_of_buffered {e : Engine} (h : e.next ≠ 64) : e.refill = e := if_neg h

theorem Engine.refill_of_used_up {e : Engine} (h : e.next = 64) : e.refill = e.generateBlock := if_pos h

theorem Engine.capacity_eq_zero_iff {e : Engine} : e.capacity = 0 ↔ e.next = 64 ∧ e.exh = true := by
  have hctr := e.ctr.isLt
  have hnext : e.next = 64 ↔ e.next.val = 64 := Fin.ext_iff
  rw [hnext, Engine.capacity]
  cases e.exh <;> simp <;> omega

/-- An engine with its block used up that can go on has EXH = 0. -/
theorem Engine.exh_of_used_up {e : Engine} (hn : e.next = 64) (h : 0 < e.capacity) : e.exh = false := by
  rw [← Bool.not_eq_true]
  exact fun he => absurd (Engine.capacity_eq_zero_iff.mpr ⟨hn, he⟩) (by omega)

/-- SeqRun goes on by one byte as long as the engine can produce one. -/
theorem seqRun_succ {e : Engine} (h : 0 < e.capacity) (src dst : Nat) (zero : Bool) (n i : Nat) :
    seqRun src dst zero (n + 1) i e = seqRun src dst zero n (i + 1) (e.refill.xorByte src dst zero i) := by
  by_cases hn : e.next = 64
  · rw [seqRun_generates hn (Engine.exh_of_used_up hn h), Engine.refill_of_used_up hn]
  · rw [seqRun_buffered hn, Engine.refill_of_buffered hn]

/-- SeqRun stops where the engine can produce no byte (R173). -/
theorem seqRun_of_capacity_zero {e : Engine} (h : e.capacity = 0) (src dst : Nat) (zero : Bool) (n i : Nat) :
    seqRun src dst zero (n + 1) i e = ⟨e.exhaust, i, .keystreamExhausted⟩ := by
  obtain ⟨hn, he⟩ := Engine.capacity_eq_zero_iff.mp h
  exact seqRun_exhausted hn he ..

theorem Engine.refill_next_ne (e : Engine) : e.refill.next ≠ 64 := by
  by_cases hn : e.next = 64
  · simp [Engine.refill_of_used_up hn]
  · rwa [Engine.refill_of_buffered hn]

@[simp] theorem Engine.refill_mem (e : Engine) : e.refill.mem = e.mem := by
  unfold Engine.refill
  split <;> rfl

/-- Generating a block, the last one too, keeps the capacity. -/
theorem Engine.capacity_refill {e : Engine} (h : 0 < e.capacity) : e.refill.capacity = e.capacity := by
  by_cases hn : e.next = 64
  · have hnext : e.next.val = 64 := congrArg Fin.val hn
    have he := Engine.exh_of_used_up hn h
    rw [Engine.refill_of_used_up hn]
    by_cases hlast : e.ctr.toNat = 2 ^ 64 - 1
    · simp only [Engine.capacity, Engine.generateBlock_exh_of_clear he, Engine.generateBlock_next, hlast, hnext, he,
        decide_true, if_true, Bool.false_eq_true, if_false, Fin.val_zero]
      omega
    · exact Engine.capacity_generateBlock hn he hlast
  · rw [Engine.refill_of_buffered hn]

theorem blockIndex_add_succ (c : BlockIndex) (n : Nat) : c + BitVec.ofNat 64 (n + 1) = c + 1 + BitVec.ofNat 64 n := by
  rw [Nat.add_comm, BitVec.ofNat_add, ← BitVec.add_assoc]
  rfl

/-- Generating a block moves no byte of the stream (R174). -/
theorem Engine.streamByte_refill (e : Engine) (t : Nat) : e.refill.streamByte t = e.streamByte t := by
  by_cases hn : e.next = 64
  · have hnext : e.next.val = 64 := congrArg Fin.val hn
    rw [Engine.refill_of_used_up hn, Engine.streamByte, Engine.streamByte]
    simp only [hnext, Engine.generateBlock_next, Fin.val_zero, Nat.zero_add, show ¬ 64 + t < 64 by omega, dite_false,
      Nat.add_mod_left]
    split
    next ht =>
      simp only [show (64 + t) / 64 - 1 = 0 by omega, Nat.mod_eq_of_lt ht, Engine.generateBlock_outbuf, BitVec.add_zero]
    next ht =>
      have hindex : e.ctr + 1 + BitVec.ofNat 64 (t / 64 - 1) = e.ctr + BitVec.ofNat 64 ((64 + t) / 64 - 1) := by
        rw [show (64 + t) / 64 - 1 = (t / 64 - 1) + 1 by omega, blockIndex_add_succ]
      simp only [Engine.generateBlock_ctr, hindex]
      rfl
  · rw [Engine.refill_of_buffered hn]

/-- The XOR step uses up the first byte ahead. -/
theorem Engine.streamByte_xorByte {e : Engine} (h : e.next ≠ 64) (src dst : Nat) (zero : Bool) (i t : Nat) :
    (e.xorByte src dst zero i).streamByte t = e.streamByte (t + 1) := by
  rw [Engine.xorByte_of_lt (by omega)]
  simp only [Engine.streamByte, show e.next.val + 1 + t = e.next.val + (t + 1) by omega]
  rfl

/-- The XOR step writes the source byte XOR the first byte ahead (R172). -/
theorem Engine.xorByte_mem {e : Engine} (h : e.next ≠ 64) (src dst : Nat) (zero : Bool) (i : Nat) :
    (e.xorByte src dst zero i).mem =
      e.mem.write (dst + i) (e.mem.sourceByte zero (src + i) ^^^ e.streamByte 0) := by
  have hlt : e.next.val < 64 := by omega
  rw [Engine.xorByte_of_lt hlt]
  simp only [Engine.streamByte, Nat.add_zero, hlt, dite_true]

/-! ### Many bytes of the stream (R174) -/

/-- The engine `n` bytes further on in its stream, buffer memory apart. -/
def Engine.skip (e : Engine) (n : Nat) : Engine :=
  { e with
    next := ⟨e.next.val + n - 64 * e.blocksFor n, by unfold Engine.blocksFor; omega⟩
    ctr := e.ctr + BitVec.ofNat 64 (e.blocksFor n)
    exh := e.exh || e.ctr.toNat + e.blocksFor n = 2 ^ 64
    gen := e.gen || 0 < e.blocksFor n
    outbuf := if e.blocksFor n = 0 then e.outbuf else e.blockAt (e.ctr + BitVec.ofNat 64 (e.blocksFor n - 1)) }

theorem Engine.blocksFor_eq_zero_iff {e : Engine} {n : Nat} : e.blocksFor n = 0 ↔ n ≤ 64 - e.next.val := by
  unfold Engine.blocksFor
  omega

theorem Engine.skip_zero (e : Engine) : e.skip 0 = e := by
  have hblocks : e.blocksFor 0 = 0 := Engine.blocksFor_eq_zero_iff.mpr (Nat.zero_le _)
  have hctr : ¬ e.ctr.toNat + 0 = 2 ^ 64 := by omega
  simp only [Engine.skip, hblocks, hctr]
  simp

/-- Going on by one byte, then by `n`, is going on by `n + 1`. -/
theorem Engine.skip_xorByte {e : Engine} (h : e.next ≠ 64) (src dst : Nat) (zero : Bool) (i n : Nat) :
    (e.xorByte src dst zero i).skip n = { e.skip (n + 1) with mem := (e.xorByte src dst zero i).mem } := by
  have hnext := Engine.xorByte_next h src dst zero i
  have hblocks : (e.xorByte src dst zero i).blocksFor n = e.blocksFor (n + 1) := by
    unfold Engine.blocksFor
    omega
  have hcursor : e.next.val + 1 + n = e.next.val + (n + 1) := by omega
  have hkey (c : BlockIndex) : (e.xorByte src dst zero i).blockAt c = e.blockAt c := by
    simp [Engine.blockAt]
  simp [Engine.skip, hblocks, hnext, hcursor, hkey]

/-- With the buffered block used up, the first block of a run is the one generated at once. -/
theorem Engine.blocksFor_generateBlock {e : Engine} {n : Nat} (hn : e.next = 64) (hpos : 0 < n) :
    e.blocksFor n = e.generateBlock.blocksFor n + 1 := by
  have hnext : e.next.val = 64 := congrArg Fin.val hn
  simp only [Engine.blocksFor, hnext, Engine.generateBlock_next, Fin.val_zero]
  omega

/-- The wrap of the counter is met before or after the block generated at once (R171). -/
theorem Engine.skip_exh_generateBlock {e : Engine} {n : Nat} (hn : e.next = 64) (hpos : 0 < n) (h : n ≤ e.capacity) :
    (e.generateBlock.skip n).exh = (e.skip n).exh := by
  have hnext : e.next.val = 64 := congrArg Fin.val hn
  have he := Engine.exh_of_used_up hn (Nat.lt_of_lt_of_le hpos h)
  change (e.generateBlock.exh || decide (e.generateBlock.ctr.toNat + e.generateBlock.blocksFor n = 2 ^ 64)) =
    (e.exh || decide (e.ctr.toNat + e.blocksFor n = 2 ^ 64))
  rw [Engine.blocksFor_generateBlock hn hpos, Engine.generateBlock_exh_of_clear he, Engine.generateBlock_ctr, he,
    Bool.false_or, ← Bool.decide_or, decide_eq_decide]
  by_cases hlast : e.ctr.toNat = 2 ^ 64 - 1
  · have hb : e.generateBlock.blocksFor n = 0 := by
      rw [Engine.blocksFor_eq_zero_iff, Engine.generateBlock_next]
      simpa [Engine.capacity, he, hnext, hlast] using h
    simp [hlast, hb]
  · rw [or_iff_right hlast, show (e.ctr + 1).toNat = e.ctr.toNat + 1 by bv_omega]
    omega

/-- Generating a block the run needs does not change where it ends. -/
theorem Engine.skip_refill {e : Engine} {n : Nat} (hpos : 0 < n) (h : n ≤ e.capacity) : e.refill.skip n = e.skip n := by
  by_cases hn : e.next = 64
  · have hnext : e.next.val = 64 := congrArg Fin.val hn
    have hblocks := Engine.blocksFor_generateBlock hn hpos
    rw [Engine.refill_of_used_up hn, Engine.skip, Engine.skip, Engine.mk.injEq]
    refine ⟨rfl, rfl, ?counter, rfl, rfl, ?buffer, ?cursor, Engine.skip_exh_generateBlock hn hpos h, rfl, ?generated, rfl⟩
    case counter => rw [hblocks, blockIndex_add_succ, Engine.generateBlock_ctr]
    case buffer =>
      rw [hblocks, if_neg (Nat.succ_ne_zero _), Nat.add_sub_cancel]
      cases e.generateBlock.blocksFor n with
      | zero => simp
      | succ b =>
        rw [if_neg (Nat.succ_ne_zero _), Nat.add_sub_cancel, blockIndex_add_succ]
        rfl
    case cursor =>
      rw [Fin.mk.injEq, hblocks, hnext, Engine.generateBlock_next, Fin.val_zero]
      omega
    case generated => simp [hblocks]
  · rw [Engine.refill_of_buffered hn]

/-- Going on by one byte, then by `n`, is going on by `n + 1`, buffer memory apart. -/
theorem Engine.skip_succ {e : Engine} {n : Nat} (h : n + 1 ≤ e.capacity) (src dst : Nat) (zero : Bool) (i : Nat) :
    (e.refill.xorByte src dst zero i).skip n =
      { e.skip (n + 1) with mem := (e.refill.xorByte src dst zero i).mem } := by
  rw [Engine.skip_xorByte e.refill_next_ne, Engine.skip_refill (Nat.succ_pos n) h]

/-- One byte of capacity is used up by one byte. -/
theorem Engine.capacity_succ {e : Engine} (h : 0 < e.capacity) (src dst : Nat) (zero : Bool) (i : Nat) :
    (e.refill.xorByte src dst zero i).capacity + 1 = e.capacity := by
  rw [Engine.capacity_xorByte e.refill_next_ne, Engine.capacity_refill h]

/-- The capacity left after `n` bytes. -/
theorem Engine.capacity_skip {e : Engine} {n : Nat} (h : n ≤ e.capacity) : (e.skip n).capacity + n = e.capacity := by
  induction n generalizing e with
  | zero => rw [Engine.skip_zero, Nat.add_zero]
  | succ n ih =>
    have hcap := Engine.capacity_succ (Nat.lt_of_lt_of_le (Nat.succ_pos n) h) 0 0 true 0
    have hskip : ((e.refill.xorByte 0 0 true 0).skip n).capacity = (e.skip (n + 1)).capacity :=
      (congrArg Engine.capacity (Engine.skip_succ h 0 0 true 0) :)
    have hrest := ih (e := e.refill.xorByte 0 0 true 0) (by omega)
    omega

/-- Generating a block leaves the position (R174). -/
theorem Engine.position_refill {e : Engine} (h : 0 < e.capacity) : e.refill.position = e.position := by
  by_cases hn : e.next = 64
  · have hnext : e.next.val = 64 := congrArg Fin.val hn
    have he := Engine.exh_of_used_up hn h
    rw [Engine.refill_of_used_up hn]
    simp only [Engine.position, Engine.generateBlock_exh_of_clear he, Engine.generateBlock_next,
      Engine.generateBlock_ctr, he, hnext]
    by_cases hlast : e.ctr.toNat = 2 ^ 64 - 1
    · simp [hlast]
    · simp only [show (e.ctr + 1).toNat = e.ctr.toNat + 1 by bv_omega, decide_eq_false hlast, Bool.false_eq_true,
        if_false, Fin.val_zero]
      omega
  · rw [Engine.refill_of_buffered hn]

/-- Each XOR step increases the position by one (R174). -/
theorem Engine.position_xorByte {e : Engine} (h : e.next ≠ 64) (src dst : Nat) (zero : Bool) (i : Nat) :
    (e.xorByte src dst zero i).position = e.position + 1 := by
  simp only [Engine.position, Engine.xorByte_next h, Engine.xorByte_ctr, Engine.xorByte_exh]
  omega

/-- The position advances by the bytes produced (R174). -/
theorem Engine.position_skip {e : Engine} {n : Nat} (h : n ≤ e.capacity) :
    (e.skip n).position = e.position + n := by
  induction n generalizing e with
  | zero => simp [Engine.skip_zero]
  | succ n ih =>
    have hpos : 0 < e.capacity := by omega
    have hcap := Engine.capacity_succ hpos 0 0 true 0
    have hskip : ((e.refill.xorByte 0 0 true 0).skip n).position = (e.skip (n + 1)).position :=
      (congrArg Engine.position (Engine.skip_succ h 0 0 true 0) :)
    rw [← hskip, ih (by omega), Engine.position_xorByte e.refill_next_ne, Engine.position_refill hpos]
    push_cast
    ring

/-- At the end of the stream the buffered block is used up and EXH = 1; the counter of a stream with blocks left has
wrapped to 0, and a block was generated (R171, R173). -/
theorem Engine.skip_capacity (e : Engine) :
    (e.skip e.capacity).next = 64 ∧ (e.skip e.capacity).exh = true ∧
      (e.exh = false → (e.skip e.capacity).ctr = 0 ∧ (e.skip e.capacity).gen = true) ∧
      (e.exh = true → (e.skip e.capacity).ctr = e.ctr ∧ (e.skip e.capacity).gen = e.gen) := by
  have hzero : (e.skip e.capacity).capacity = 0 := by
    have hcap := Engine.capacity_skip (Nat.le_refl e.capacity)
    omega
  obtain ⟨hnext, hexh⟩ := Engine.capacity_eq_zero_iff.mp hzero
  refine ⟨hnext, hexh, fun he => ?_, fun he => ?_⟩
  · have hwrap : e.ctr.toNat + e.blocksFor e.capacity = 2 ^ 64 := by simpa [Engine.skip, he] using hexh
    have hctr := e.ctr.isLt
    have hb : 0 < e.blocksFor e.capacity := by omega
    refine ⟨?_, by simp [Engine.skip, hb]⟩
    show e.ctr + BitVec.ofNat 64 (e.blocksFor e.capacity) = 0
    bv_omega
  · have hb : e.blocksFor e.capacity = 0 := Engine.blocksFor_eq_zero_iff.mpr (by simp [Engine.capacity, he])
    simp [Engine.skip, hb]

/-! ### SeqRun in closed form (R170) -/

/-- A run of `a + b` bytes is one of `a` bytes, and one of `b` bytes from where that one ended, unless it stopped. -/
theorem seqRun_add (src dst : Nat) (zero : Bool) (a b i : Nat) (e : Engine) :
    seqRun src dst zero (a + b) i e =
      if (seqRun src dst zero a i e).cause = .ok then seqRun src dst zero b (i + a) (seqRun src dst zero a i e).engine
      else seqRun src dst zero a i e := by
  induction a generalizing i e with
  | zero => simp
  | succ a ih =>
    rw [Nat.add_right_comm]
    rcases Nat.eq_zero_or_pos e.capacity with h | h
    · simp [seqRun_of_capacity_zero h]
    · rw [seqRun_succ h, seqRun_succ h, ih, Nat.add_right_comm i 1 a, Nat.add_assoc i a 1]

/-- The offset of a run counts from its addresses; a run of zero bytes has no source address. -/
theorem seqRun_shift {src src' k : Nat} {zero : Bool} (hsrc : zero = false → src' = src + k) (dst n i : Nat) (e : Engine) :
    seqRun src dst zero n (k + i) e =
      { seqRun src' (dst + k) zero n i e with count := k + (seqRun src' (dst + k) zero n i e).count } := by
  induction n generalizing i e with
  | zero => rfl
  | succ n ih =>
    rcases Nat.eq_zero_or_pos e.capacity with hc | hc
    · simp [seqRun_of_capacity_zero hc]
    · have hbyte : e.refill.xorByte src dst zero (k + i) = e.refill.xorByte src' (dst + k) zero i := by
        cases zero with
        | true => simp [Engine.xorByte, Memory.sourceByte, Nat.add_assoc]
        | false => rw [hsrc rfl]; simp [Engine.xorByte, Nat.add_assoc]
      rw [seqRun_succ hc, seqRun_succ hc, hbyte, Nat.add_assoc, ih]

/-- The bytes a run of `n` bytes writes: source XOR keystream. -/
def Engine.output (e : Engine) (src : Nat) (zero : Bool) (n : Nat) : List Byte :=
  (List.range n).map fun t => e.mem.sourceByte zero (src + t) ^^^ e.streamByte t

/-- The engine after a run of `n` bytes that the stream has. -/
def Engine.produce (e : Engine) (src dst : Nat) (zero : Bool) (n : Nat) : Engine :=
  { e.skip n with mem := e.mem.writeBytes dst (e.output src zero n) }

/-- Ranges at one address, or with no address in common, pass R71's test. -/
theorem partialOverlap_eq_false_iff {src dst n : Nat} :
    partialOverlap src dst n = false ↔ n = 0 ∨ src = dst ∨ src + n ≤ dst ∨ dst + n ≤ src := by
  rw [← Bool.not_eq_true, partialOverlap]
  simp only [Bool.and_eq_true, decide_eq_true_eq]
  omega

theorem partialOverlap_prefix {src dst a b : Nat} (h : partialOverlap src dst (a + b) = false) :
    partialOverlap src dst a = false := by
  rw [partialOverlap_eq_false_iff] at h ⊢
  omega

/-- The first byte of a run leaves the rest of its source alone, the ranges being equal or disjoint (R71, R74). -/
theorem Engine.sourceByte_xorByte {e : Engine} (hwf : e.mem.wf) {src dst i t n : Nat} {zero : Bool}
    (hov : zero = false → partialOverlap src dst n = false) (hi : i < t) (ht : t < n) :
    (e.xorByte src dst zero i).mem.sourceByte zero (src + t) = e.mem.sourceByte zero (src + t) := by
  cases zero with
  | true => rfl
  | false =>
    have hne : src + t ≠ dst + i := by
      have h := partialOverlap_eq_false_iff.mp (hov rfl)
      omega
    exact Engine.xorByte_read_other hwf false hne

/-- A run of `n + 1` bytes is its first byte, then a run of `n` bytes at the next offset. -/
theorem Engine.produce_succ {e : Engine} (hwf : e.mem.wf) {src dst i n : Nat} {zero : Bool}
    (hov : zero = false → partialOverlap src dst (i + (n + 1)) = false) (h : n + 1 ≤ e.capacity) :
    (e.refill.xorByte src dst zero i).produce (src + (i + 1)) (dst + (i + 1)) zero n =
      e.produce (src + i) (dst + i) zero (n + 1) := by
  have hne := e.refill_next_ne
  have hout : e.output (src + i) zero (n + 1) = (e.mem.sourceByte zero (src + i) ^^^ e.streamByte 0) ::
      (e.refill.xorByte src dst zero i).output (src + (i + 1)) zero n := by
    rw [Engine.output, List.range_succ_eq_map, List.map_cons, List.map_map, Nat.add_zero, Engine.output]
    congr 1
    refine List.map_congr_left fun t ht => ?_
    have ht := List.mem_range.mp ht
    have hsrc := Engine.sourceByte_xorByte (e := e.refill) (by simpa using hwf) hov (i := i) (t := i + 1 + t)
      (by omega) (by omega)
    rw [Function.comp, Engine.streamByte_xorByte hne, Engine.streamByte_refill, Nat.add_assoc src (i + 1), hsrc,
      Engine.refill_mem, Nat.add_assoc src i, Nat.succ_eq_add_one, Nat.add_assoc i 1, Nat.add_comm 1 t]
  rw [Engine.produce, Engine.produce, Engine.skip_succ h, hout, Memory.writeBytes, Engine.xorByte_mem hne,
    Engine.refill_mem, Engine.streamByte_refill, Nat.add_assoc dst i 1]

/-- As far as the capacity reaches, SeqRun ends with OK and has written source XOR keystream. -/
theorem seqRun_of_le_capacity {e : Engine} (hwf : e.mem.wf) {src dst i n : Nat} {zero : Bool}
    (hov : zero = false → partialOverlap src dst (i + n) = false) (h : n ≤ e.capacity) :
    seqRun src dst zero n i e = ⟨e.produce (src + i) (dst + i) zero n, i + n, .ok⟩ := by
  induction n generalizing i e with
  | zero => simp [Engine.produce, Engine.skip_zero, Engine.output, Memory.writeBytes]
  | succ n ih =>
    have hpos : 0 < e.capacity := Nat.lt_of_lt_of_le (Nat.succ_pos n) h
    have hcap := Engine.capacity_succ hpos src dst zero i
    rw [seqRun_succ hpos, ih (Engine.xorByte_wf (by simpa using hwf) ..) (by rwa [Nat.add_assoc, Nat.add_comm 1 n])
      (by omega), Engine.produce_succ hwf hov h, Nat.add_assoc, Nat.add_comm 1 n]

/-- Past the capacity, SeqRun writes what the stream has and stops with KeystreamExhausted (R173). -/
theorem seqRun_of_capacity_lt {e : Engine} (hwf : e.mem.wf) {src dst n : Nat} {zero : Bool}
    (hov : zero = false → partialOverlap src dst n = false) (h : e.capacity < n) :
    seqRun src dst zero n 0 e = ⟨(e.produce src dst zero e.capacity).exhaust, e.capacity, .keystreamExhausted⟩ := by
  obtain ⟨m, rfl⟩ := Nat.exists_eq_add_of_lt h
  have hcap : (e.produce src dst zero e.capacity).capacity = 0 := by
    have hleft := Engine.capacity_skip (Nat.le_refl e.capacity)
    have hmem : (e.produce src dst zero e.capacity).capacity = (e.skip e.capacity).capacity := rfl
    omega
  rw [Nat.add_assoc] at hov ⊢
  rw [seqRun_add, seqRun_of_le_capacity hwf (fun hz => by simpa using partialOverlap_prefix (hov hz)) (Nat.le_refl _)]
  simp [seqRun_of_capacity_zero hcap]

/-- What a run of `n` bytes leaves in buffer memory. -/
theorem Engine.read_produce {e : Engine} (hwf : e.mem.wf) (src dst : Nat) (zero : Bool) (n a : Nat) :
    (e.produce src dst zero n).mem.read a =
      if dst ≤ a ∧ a < dst + n then e.mem.sourceByte zero (src + (a - dst)) ^^^ e.streamByte (a - dst)
      else e.mem.read a := by
  have hlen : (e.output src zero n).length = n := by simp [Engine.output]
  rw [Engine.produce, Memory.read_writeBytes hwf, hlen]
  split
  next ha => simp [Engine.output, show a - dst < n by omega]
  next => rfl

end Sys2Proof.Machine
end

section
/-! SUPPORT. XOR and KS as commands: their checks, the state they leave within the stream and past its end, and what follows
for one request in two pieces, for KS against XOR, and for XOR twice (42_keystream.md R175 to R181). It settles O37 to O40 and
O42 to O46. -/

namespace Sys2Proof.Machine

/-! ### The preconditions (R176) -/

/-- A command whose check applies leaves the rejected state (R229). -/
theorem exec_rejects {i : Instr} {s : State} {c : Cause} (hf : s.fatal = false) (hc : s.checkOf i = some c) :
    exec i s = .next (s.rejectedWith c) := by
  rw [exec_of_check_some (.inr hf) hc, State.reject_eq _ _ (State.isFatal_of_checkOf hc)]

theorem inMemory_eq_false_iff {m a n : Nat} : inMemory m a n = false ↔ 0 < n ∧ m < a + n := by
  rw [← Bool.not_eq_true, inMemory_iff]
  omega

section
variable {s : State}

/-- The operands XOR accepts: no bytes, or ranges in memory that coincide or are disjoint (R69, R71, R176). -/
theorem State.checkXor_eq_none (hk : s.keyset = true) (hi : s.ivset = true) (ht : s.term = false)
    (hl : s.a2.toNat ≤ s.a3.toNat)
    (hm : s.a2 = 0 ∨ (s.a0.toNat + s.a2.toNat ≤ s.cfg.memSize ∧ s.a1.toNat + s.a2.toNat ≤ s.cfg.memSize ∧
      (s.a0 = s.a1 ∨ s.a0.toNat + s.a2.toNat ≤ s.a1.toNat ∨ s.a1.toNat + s.a2.toNat ≤ s.a0.toNat))) :
    s.checkXor = none := by
  have hzero (h : s.a2 = 0) : s.a2.toNat = 0 := congrArg BitVec.toNat h
  have hov : partialOverlap s.a0.toNat s.a1.toNat s.a2.toNat = false :=
    partialOverlap_eq_false_iff.mpr (hm.imp hzero fun ⟨_, _, hsep⟩ => hsep.imp_left (congrArg BitVec.toNat))
  rw [State.checkXor_of_earlier_pass hk hi ht hl (inMemory_iff.mpr (hm.imp hzero fun ⟨hs, _, _⟩ => hs))
    (inMemory_iff.mpr (hm.imp hzero fun ⟨_, hd, _⟩ => hd)), hov]
  rfl

/-- The operands KS accepts: no bytes, or a range in memory (R69, R176). -/
theorem State.checkKs_eq_none (hk : s.keyset = true) (hi : s.ivset = true) (ht : s.term = false)
    (hm : s.a2 = 0 ∨ s.a1.toNat + s.a2.toNat ≤ s.cfg.memSize) : s.checkKs = none := by
  simp [State.checkKs, hk, hi, ht, inMemory_iff.mpr (hm.imp_left (congrArg BitVec.toNat))]

theorem State.le_of_checkXor_eq_none (h : s.checkXor = none) : s.a2.toNat ≤ s.a3.toNat := by
  unfold State.checkXor at h
  split_ifs at h with hk ht hl hm ho
  exact Nat.le_of_not_lt hl

theorem State.check_notConfigured {i : Instr} (hi : i = .xor ∨ i = .ks) (h : s.keyset = false ∨ s.ivset = false) :
    s.checkOf i = some .notConfigured := by
  have hset : (s.keyset && s.ivset) = false := Bool.and_eq_false_iff.mpr h
  rcases hi with rfl | rfl
  · simp [State.checkOf, State.checkXor, hset]
  · simp [State.checkOf, State.checkKs, hset]

theorem State.check_fatalMisuse {i : Instr} (hi : i = .xor ∨ i = .ks) (hk : s.keyset = true) (hv : s.ivset = true)
    (ht : s.term = true) : s.checkOf i = some .fatalMisuse := by
  rcases hi with rfl | rfl
  · simp [State.checkOf, State.checkXor, hk, hv, ht]
  · simp [State.checkOf, State.checkKs, hk, hv, ht]

end

/-- Settles O42: an XOR or KS rejects with the first of its checks that applies. -/
theorem generationPreconditionsRejectInOrder : Obligations.GenerationPreconditionsRejectInOrder := by
  intro s hf
  have hconfigured (h : s.keyset = false ∨ s.ivset = false) (i : Instr) (hi : i = .xor ∨ i = .ks) :=
    exec_rejects hf (State.check_notConfigured hi h)
  refine ⟨fun h => ⟨hconfigured h _ (.inl rfl), hconfigured h _ (.inr rfl)⟩, fun hk hi => ⟨fun ht => ?misuse, fun ht =>
    ⟨fun hl => exec_rejects hf ?space, fun hl hpos hm => exec_rejects hf ?address,
      fun hl hpos hsrc hdst hne hs hd => exec_rejects hf ?overlap, fun hpos hm => exec_rejects hf ?ksAddress⟩⟩⟩
  case misuse =>
    exact ⟨exec_rejects hf (State.check_fatalMisuse (.inl rfl) hk hi ht),
      exec_rejects hf (State.check_fatalMisuse (.inr rfl) hk hi ht)⟩
  case space => simp [State.checkOf, State.checkXor, hk, hi, ht, hl]
  case address =>
    have hout := hm.imp (fun h => inMemory_eq_false_iff.mpr ⟨hpos, h⟩) (fun h => inMemory_eq_false_iff.mpr ⟨hpos, h⟩)
    simp [State.checkOf, State.checkXor, hk, hi, ht, Nat.not_lt.mpr hl, hout]
  case overlap =>
    have hov : partialOverlap s.a0.toNat s.a1.toNat s.a2.toNat = true := by
      simp [partialOverlap, hpos, hs, hd, BitVec.toNat_inj, hne]
    rw [State.checkOf, State.checkXor_of_earlier_pass hk hi ht hl (inMemory_iff.mpr (.inr hsrc))
      (inMemory_iff.mpr (.inr hdst)), if_pos hov]
  case ksAddress => simp [State.checkOf, State.checkKs, hk, hi, ht, inMemory_eq_false_iff.mpr ⟨hpos, hm⟩]

/-! ### The state XOR and KS leave (R177, R178, R180) -/

section
variable {s : State} {src dst : Nat} {zero : Bool}

theorem exec_xor (hf : s.fatal = false) (hc : s.checkXor = none) :
    exec .xor s = .next (s.generate s.a0.toNat s.a1.toNat s.a2.toNat false) :=
  exec_of_check_none (i := .xor) (.inr hf) hc

theorem exec_ks (hf : s.fatal = false) (hc : s.checkKs = none) :
    exec .ks s = .next (s.generate 0 s.a1.toNat s.a2.toNat true) :=
  exec_of_check_none (i := .ks) (.inr hf) hc

/-- A request that the stream has bytes for ends with OK. -/
theorem State.generate_of_le_capacity {n : Nat} (hwf : s.mem.wf)
    (hov : zero = false → partialOverlap src dst n = false) (h : n ≤ s.capacity) :
    s.generate src dst n zero =
      { s with
        toEngine := s.toEngine.produce src dst zero n
        cause := .ok, res0 := BitVec.ofNat 32 n, res1 := 0, phase := .idle } := by
  rw [State.generate, seqRun_of_le_capacity hwf (by simpa using hov) h, State.finish_ok]
  simp

/-- A request that outruns the stream ends with KeystreamExhausted (R173). -/
theorem State.generate_of_capacity_lt {n : Nat} (hwf : s.mem.wf)
    (hov : zero = false → partialOverlap src dst n = false) (h : s.capacity < n) :
    s.generate src dst n zero =
      { s with
        toEngine := (s.toEngine.produce src dst zero s.capacity).exhaust
        cause := .keystreamExhausted, res0 := BitVec.ofNat 32 s.capacity, res1 := 0, phase := .idle } := by
  rw [State.generate, seqRun_of_capacity_lt hwf hov h]
  simp [State.finish, Cause.isFatal]

end

/-- Settles O40: a run of no bytes leaves the engine. -/
theorem zeroLengthRequestChangesNothing : Obligations.ZeroLengthRequestChangesNothing := by
  intro s hf hk hi hn
  refine ⟨fun ht => ?_, fun ht => ⟨exec_rejects hf (State.check_fatalMisuse (.inl rfl) hk hi ht),
    exec_rejects hf (State.check_fatalMisuse (.inr rfl) hk hi ht)⟩⟩
  have hrun (src dst : Nat) (zero : Bool) : s.generate src dst s.a2.toNat zero =
      { s with cause := .ok, res0 := 0, res1 := 0, phase := .idle } := by
    rw [show s.a2.toNat = 0 from congrArg BitVec.toNat hn]
    exact s.finish_ok 0 0
  constructor
  · rw [exec_xor hf (State.checkXor_eq_none hk hi ht (by simp [hn]) (.inl hn)), hrun]
  · rw [exec_ks hf (State.checkKs_eq_none hk hi ht (.inl hn)), hrun]

/-- A completed XOR or KS is a SeqRun to the A2 bytes from A1. -/
theorem State.effectOf_generates (s : State) {i : Instr} (hi : i = .xor ∨ i = .ks) :
    ∃ src zero, s.effectOf i = s.generate src s.a1.toNat s.a2.toNat zero := by
  rcases hi with rfl | rfl
  · exact ⟨_, _, rfl⟩
  · exact ⟨_, _, rfl⟩

/-- The registers a SeqRun command leaves alone (R55, R180). -/
theorem State.generate_frame (s : State) (src dst len : Nat) (zero : Bool) :
    let t := s.generate src dst len zero
    t = { s with
      mem := t.mem, ctr := t.ctr, next := t.next, outbuf := t.outbuf, exh := t.exh, term := t.term, gen := t.gen
      fatal := t.fatal, cause := t.cause, res0 := t.res0, res1 := t.res1, phase := .idle } := by
  obtain ⟨hconst, hkey, hnonce, hrounds⟩ := seqRun_context src dst zero len 0 s.toEngine
  rw [← hconst, ← hkey, ← hnonce, ← hrounds]
  rfl

/-- RES0 is the count of SeqRun, no more than the length (R180). -/
theorem State.generate_res0 (s : State) (src dst : Nat) {n : Nat} (zero : Bool) (hn : n < 2 ^ 32) :
    (s.generate src dst n zero).res0.toNat = (seqRun src dst zero n 0 s.toEngine).count := by
  have hcount : (seqRun src dst zero n 0 s.toEngine).count ≤ n := by
    rcases seqRun_ends src dst zero n 0 s.toEngine with ⟨_, h⟩ | ⟨_, _, h, _⟩ <;> omega
  exact Nat.mod_eq_of_lt (Nat.lt_of_le_of_lt hcount hn)

/-- Settles O43: a completed command is a SeqRun, which writes up to its count; any other leaves the engine. -/
theorem xorAndKsWriteOnlyTheirDestination : Obligations.XorAndKsWriteOnlyTheirDestination := by
  intro i s t hi hwf h
  rcases exec_cases h with ⟨hs, rfl⟩ | ⟨hs, ⟨c, hc, rfl⟩ | ⟨_, rfl⟩⟩
  · exact ⟨fun hs' => absurd hs' (by simp [hs]), fun _ _ => rfl, rfl⟩
  · rw [State.reject_eq _ _ (State.isFatal_of_checkOf hc)]
    exact ⟨fun _ ht => absurd ht (by simp), fun _ _ => rfl, rfl⟩
  · have hs : s.fatal = false := hs.resolve_left (by rintro rfl; simp at hi)
    obtain ⟨src, zero, heffect⟩ := s.effectOf_generates hi
    rw [heffect, State.generate_res0 s src _ zero s.a2.isLt]
    exact ⟨fun _ _ a ha => seqRun_read_outside hwf zero ha, fun ht => absurd ht (by simp [State.generate_fatal, hs]),
      s.generate_frame ..⟩

/-- The XOR or KS of a request within the stream: the bytes, the position and the registers (R172, R174, R177). -/
theorem State.generate_within_stream {s : State} {src dst : Nat} {n : Word} {zero : Bool} (hwf : s.mem.wf)
    (hov : zero = false → partialOverlap src dst n.toNat = false) (h : n.toNat ≤ s.capacity) :
    let t := s.generate src dst n.toNat zero
    (∀ a, t.mem.read a =
      if dst ≤ a ∧ a < dst + n.toNat then s.mem.sourceByte zero (src + (a - dst)) ^^^ s.streamByte (a - dst)
      else s.mem.read a) ∧
    t.position = s.position + n.toNat ∧
    t.next.val = s.next.val + n.toNat - 64 * s.blocksFor n.toNat ∧
    t = { s with
      mem := t.mem, next := t.next
      ctr := s.ctr + BitVec.ofNat 64 (s.blocksFor n.toNat)
      exh := s.exh || s.ctr.toNat + s.blocksFor n.toNat = 2 ^ 64
      gen := s.gen || 0 < s.blocksFor n.toNat
      outbuf := if s.blocksFor n.toNat = 0 then s.outbuf
                else s.blockAt (s.ctr + BitVec.ofNat 64 (s.blocksFor n.toNat - 1))
      cause := .ok, res0 := n, res1 := 0, phase := .idle } := by
  rw [State.generate_of_le_capacity hwf hov h, BitVec.ofNat_toNat, BitVec.setWidth_eq]
  exact ⟨Engine.read_produce hwf src dst zero n.toNat, Engine.position_skip h, rfl, rfl⟩

/-- Settles O37: the checks pass, and the request is within the stream. -/
theorem xorWritesSourceXorKeystream : Obligations.XorWritesSourceXorKeystream := by
  intro s hwf hf hk hi ht hl hm hcap
  have hc := State.checkXor_eq_none hk hi ht hl hm
  obtain ⟨_, _, _, _, hov⟩ := State.checkXor_none hc
  exact ⟨_, exec_xor hf hc, State.generate_within_stream hwf (fun _ => hov) hcap⟩

/-- A byte of an all-zero source leaves the keystream byte (R178). -/
theorem Memory.sourceByte_zero_xor (m : Memory) (a : Nat) (b : Byte) : m.sourceByte true a ^^^ b = b :=
  BitVec.zero_xor

/-- Settles O38: as for XOR, from a source of zero bytes. -/
theorem ksWritesTheKeystream : Obligations.KsWritesTheKeystream := by
  intro s hwf hf hk hi ht hm hcap
  have hc := State.checkKs_eq_none hk hi ht hm
  have hrun := State.generate_within_stream (src := 0) (dst := s.a1.toNat) (zero := true) hwf (by simp) hcap
  simp only [Memory.sourceByte_zero_xor] at hrun
  exact ⟨_, exec_ks hf hc, hrun⟩

theorem Engine.exhaust_eq {e : Engine} (hn : e.next = 64) (he : e.exh = true) :
    e.exhaust = { e with next := 64, exh := true, term := true } := by
  rw [Engine.exhaust, ← hn, ← he]

/-- The XOR or KS of a request past the end of the stream: the bytes that are left, and the terminal signal (R173, R180). -/
theorem State.generate_past_stream {s : State} {src dst : Nat} {n : Word} {zero : Bool} (hwf : s.mem.wf)
    (hov : zero = false → partialOverlap src dst n.toNat = false) (h : s.capacity < n.toNat) :
    let t := s.generate src dst n.toNat zero
    (∀ a, t.mem.read a =
      if dst ≤ a ∧ a < dst + s.capacity then s.mem.sourceByte zero (src + (a - dst)) ^^^ s.streamByte (a - dst)
      else s.mem.read a) ∧
    t.res0.toNat = s.capacity ∧ (s.exh = false → t.ctr = 0 ∧ t.gen = true) ∧
    (s.exh = true → t.ctr = s.ctr ∧ t.gen = s.gen) ∧
    t = { s with
      mem := t.mem, ctr := t.ctr, gen := t.gen, outbuf := t.outbuf, res0 := t.res0
      next := 64, exh := true, term := true, cause := .keystreamExhausted, res1 := 0, phase := .idle } := by
  obtain ⟨hnext, hexh, hblocks, hnone⟩ := s.toEngine.skip_capacity
  rw [State.generate_of_capacity_lt hwf hov h]
  refine ⟨Engine.read_produce hwf src dst zero s.capacity, Nat.mod_eq_of_lt (Nat.lt_trans h n.isLt), hblocks, hnone, ?_⟩
  rw [Engine.exhaust_eq (e := s.toEngine.produce src dst zero s.capacity) hnext hexh]
  rfl

/-- Settles O39: the checks pass, and the request is past the end of the stream. -/
theorem outrunningTheStreamEndsWithKeystreamExhausted : Obligations.OutrunningTheStreamEndsWithKeystreamExhausted := by
  intro s hwf hf hk hi ht hcap hd
  refine ⟨fun hl hs hsep => ?_, ?_⟩
  · have hc := State.checkXor_eq_none hk hi ht hl (.inr ⟨hs, hd, hsep⟩)
    obtain ⟨_, _, _, _, hov⟩ := State.checkXor_none hc
    exact ⟨_, exec_xor hf hc, State.generate_past_stream hwf (fun _ => hov) hcap⟩
  · have hrun := State.generate_past_stream (src := 0) (dst := s.a1.toNat) (zero := true) hwf (by simp) hcap
    simp only [Memory.sourceByte_zero_xor] at hrun
    exact ⟨_, exec_ks hf (State.checkKs_eq_none hk hi ht (.inr hd)), hrun⟩

/-! ### KS as the XOR of zero bytes (R178) -/

/-- A request is determined by its destination and the bytes it would write. -/
theorem State.generate_congr {s : State} {src src' dst : Nat} {zero zero' : Bool} {n : Word} (hwf : s.mem.wf)
    (hov : zero = false → partialOverlap src dst n.toNat = false)
    (hov' : zero' = false → partialOverlap src' dst n.toNat = false)
    (hout : ∀ m ≤ n.toNat, s.toEngine.output src zero m = s.toEngine.output src' zero' m) :
    s.generate src dst n.toNat zero = s.generate src' dst n.toNat zero' := by
  rcases Nat.lt_or_ge s.capacity n.toNat with h | h
  · rw [State.generate_of_capacity_lt hwf hov h, State.generate_of_capacity_lt hwf hov' h, Engine.produce,
      hout _ (Nat.le_of_lt h)]
    rfl
  · rw [State.generate_of_le_capacity hwf hov h, State.generate_of_le_capacity hwf hov' h, Engine.produce,
      hout _ (Nat.le_refl _)]
    rfl

/-- Settles O45: source bytes that read 0 are those of an all-zero source. -/
theorem ksIsXorOfZeroBytes : Obligations.KsIsXorOfZeroBytes := by
  intro s hwf hf hk hi ht hl hs hd hsep hzero
  have hc := State.checkXor_eq_none hk hi ht hl (.inr ⟨hs, hd, hsep⟩)
  obtain ⟨_, _, _, _, hov⟩ := State.checkXor_none hc
  rw [exec_ks hf (State.checkKs_eq_none hk hi ht (.inr hd)), exec_xor hf hc]
  refine congrArg Host.Outcome.next (State.generate_congr hwf (by simp) (fun _ => hov) fun m hm => ?_)
  refine List.map_congr_left fun t ht => ?_
  have hsource : s.mem.sourceByte false (s.a0.toNat + t) = 0 :=
    hzero t (Nat.lt_of_lt_of_le (List.mem_range.mp ht) hm)
  rw [hsource]
  rfl

/-! ### XOR twice (R181) -/

/-- The state with the addresses and the length of another request in A0, A1 and A2 (R85). -/
def State.setOperands (s : State) (src dst len : Word) : State := { s with a0 := src, a1 := dst, a2 := len }

@[simp] theorem State.setOperands_fatal (s : State) (src dst len : Word) :
    (s.setOperands src dst len).fatal = s.fatal := rfl

/-- Settles O46: both runs are within the stream and XOR the same keystream bytes. -/
theorem xorOfTheOutputGivesTheMessageBack : Obligations.XorOfTheOutputGivesTheMessageBack := by
  intro s t d hwf hf h hcause hfatal hsrc hdst hsep
  obtain ⟨hc, rfl⟩ := exec_completes_of_fatal_clear h hfatal
  obtain ⟨⟨hk, hi⟩, ht, _, _, hov⟩ := State.checkXor_none hc
  have hcap : s.a2.toNat ≤ s.capacity := by
    by_contra hlt
    have hout := State.generate_of_capacity_lt hwf (zero := false) (fun _ => hov) (Nat.lt_of_not_le hlt)
    rw [State.effectOf, hout] at hcause
    cases hcause
  obtain ⟨hread, _⟩ := State.generate_within_stream hwf (fun _ => hov) hcap
  have hwf' : (s.effectOf .xor).mem.wf := seqRun_wf hwf ..
  have hc' : (({ s with mem := (s.effectOf .xor).mem } : State).setOperands s.a1 d s.a2).checkXor = none :=
    State.checkXor_eq_none hk hi ht (State.le_of_checkXor_eq_none (s := s) hc) (.inr ⟨hsrc, hdst, hsep.imp_left Eq.symm⟩)
  obtain ⟨_, _, _, _, hov'⟩ := State.checkXor_none hc'
  obtain ⟨hread', _, _, hstate'⟩ := State.generate_within_stream (src := s.a1.toNat) (dst := d.toNat) (n := s.a2)
    (s := ({ s with mem := (s.effectOf .xor).mem } : State).setOperands s.a1 d s.a2) hwf' (fun _ => hov') hcap
  refine ⟨_, exec_xor hf hc', congrArg State.cause hstate', fun k hlt => ?_⟩
  have hback := hread' (d.toNat + k)
  have hthere := hread (s.a1.toNat + k)
  rw [if_pos ⟨Nat.le_add_right .., Nat.add_lt_add_left hlt _⟩, Nat.add_sub_cancel_left] at hback hthere
  calc _ = (s.effectOf .xor).mem.read (s.a1.toNat + k) ^^^ s.streamByte k := hback
    _ = (s.mem.read (s.a0.toNat + k) ^^^ s.streamByte k) ^^^ s.streamByte k := congrArg (· ^^^ s.streamByte k) hthere
    _ = s.mem.read (s.a0.toNat + k) := by rw [BitVec.xor_assoc, BitVec.xor_self, BitVec.xor_zero]

/-! ### One request in two pieces (R175) -/

theorem toNat_add_length {a : Word} {n : Nat} (h : a.toNat + n < 2 ^ 32) :
    (a + BitVec.ofNat 32 n).toNat = a.toNat + n := by
  rw [BitVec.toNat_add, BitVec.toNat_ofNat]
  omega

section
variable {s u : State} {src src' dst l1 l2 : Nat} {zero : Bool}

/-- After a first piece that the stream had bytes for, the second goes on where it stopped. -/
theorem State.generate_second_piece (hwf : s.mem.wf)
    (hov : zero = false → partialOverlap src dst (l1 + l2) = false) (hlt : l1 + l2 < 2 ^ 32)
    (hsrc : zero = false → src' = src + l1) (h : l1 ≤ s.capacity)
    (hengine : u.toEngine = (s.generate src dst l1 zero).toEngine) :
    (u.generate src' (dst + l1) l2 zero).toEngine = (s.generate src dst (l1 + l2) zero).toEngine ∧
      (s.generate src dst l1 zero).res0.toNat + (u.generate src' (dst + l1) l2 zero).res0.toNat =
        (s.generate src dst (l1 + l2) zero).res0.toNat := by
  have hfirst := seqRun_of_le_capacity hwf (src := src) (dst := dst) (i := 0) (n := l1) (zero := zero)
    (fun hz => by simpa using partialOverlap_prefix (hov hz)) h
  have hrun : seqRun src dst zero (l1 + l2) 0 s.toEngine =
      { seqRun src' (dst + l1) zero l2 0 u.toEngine with
        count := l1 + (seqRun src' (dst + l1) zero l2 0 u.toEngine).count } := by
    rw [seqRun_add, hfirst, if_pos rfl, ← seqRun_shift hsrc, hengine, State.generate, hfirst, Nat.add_comm]
    rfl
  rw [State.generate_res0 _ _ _ _ (by omega), State.generate_res0 _ _ _ _ (by omega), State.generate_res0 _ _ _ _ hlt,
    hrun, hfirst]
  exact ⟨(congrArg SeqResult.engine hrun).symm, by simp⟩

/-- The second piece of an XOR or KS, as a command: it goes on where the first one stopped, or, where that one outran the
stream, it is a fatal misuse that leaves the engine (R175, R236). -/
theorem exec_second_piece {i : Instr} (hi : i = .xor ∨ i = .ks) (hwf : s.mem.wf) (ht : s.term = false)
    (hov : zero = false → partialOverlap src dst (l1 + l2) = false) (hlt : l1 + l2 < 2 ^ 32)
    (hsrc : zero = false → src' = src + l1) (hf : u.fatal = false) (hk : u.keyset = true) (hv : u.ivset = true)
    (hengine : u.toEngine = (s.generate src dst l1 zero).toEngine)
    (hexec : u.term = false → exec i u = .next (u.generate src' (dst + l1) l2 zero)) :
    ∃ t, exec i u = .next t ∧ t.toEngine = (s.generate src dst (l1 + l2) zero).toEngine ∧
      (s.generate src dst l1 zero).res0.toNat + t.res0.toNat = (s.generate src dst (l1 + l2) zero).res0.toNat := by
  have hov1 (hz : zero = false) : partialOverlap src dst l1 = false := partialOverlap_prefix (hov hz)
  rcases Nat.lt_or_ge s.capacity l1 with h | h
  · have hfirst := State.generate_of_capacity_lt hwf hov1 h
    have hone := State.generate_of_capacity_lt hwf hov (Nat.lt_of_lt_of_le h (Nat.le_add_right l1 l2))
    have hterm : u.term = true := by
      rw [hengine, hfirst]
      rfl
    refine ⟨_, exec_rejects hf (State.check_fatalMisuse hi hk hv hterm), ?_, ?_⟩
    · rw [State.rejectedWith_toEngine, hengine, hfirst, hone]
    · rw [State.rejectedWith_res0, hfirst, hone]
      rfl
  · have hterm : u.term = false := by
      rw [hengine, State.generate_of_le_capacity hwf hov1 h]
      exact ht
    exact ⟨_, hexec hterm, State.generate_second_piece hwf hov hlt hsrc h hengine⟩

/-- XOR with its operands as numbers; a request of no bytes has no addresses. -/
theorem exec_xor_of_operands (hf : u.fatal = false) (hk : u.keyset = true) (hi : u.ivset = true) (ht : u.term = false)
    {n : Nat} (hn : u.a2.toNat = n) (hl : n ≤ u.a3.toNat)
    (hop : 0 < n → u.a0.toNat = src ∧ u.a1.toNat = dst ∧ src + n ≤ u.cfg.memSize ∧ dst + n ≤ u.cfg.memSize ∧
      (src = dst ∨ src + n ≤ dst ∨ dst + n ≤ src)) :
    exec .xor u = .next (u.generate src dst n false) := by
  rcases Nat.eq_zero_or_pos n with rfl | hpos
  · have hzero : u.a2 = 0 := BitVec.eq_of_toNat_eq hn
    rw [exec_xor hf (State.checkXor_eq_none hk hi ht (hn ▸ hl) (.inl hzero)), hn]
    rfl
  · obtain ⟨rfl, rfl, hs, hd, hsep⟩ := hop hpos
    subst hn
    rw [exec_xor hf (State.checkXor_eq_none hk hi ht hl (.inr ⟨hs, hd, hsep.imp_left BitVec.eq_of_toNat_eq⟩))]

/-- KS with its operands as numbers. -/
theorem exec_ks_of_operands (hf : u.fatal = false) (hk : u.keyset = true) (hi : u.ivset = true) (ht : u.term = false)
    {n : Nat} (hn : u.a2.toNat = n) (hop : 0 < n → u.a1.toNat = dst ∧ dst + n ≤ u.cfg.memSize) :
    exec .ks u = .next (u.generate 0 dst n true) := by
  rcases Nat.eq_zero_or_pos n with rfl | hpos
  · rw [exec_ks hf (State.checkKs_eq_none hk hi ht (.inl (BitVec.eq_of_toNat_eq hn))), hn]
    rfl
  · obtain ⟨rfl, hd⟩ := hop hpos
    subst hn
    rw [exec_ks hf (State.checkKs_eq_none hk hi ht (.inr hd))]

end

/-- Settles O44: the whole request and the first piece pass their checks, and the second is as `exec_second_piece` says. -/
theorem splittingARequestChangesNothing : Obligations.SplittingARequestChangesNothing := by
  intro s l1 l2 hwf hcfg hf hk hi ht hlen hd
  obtain ⟨_, hmem, _⟩ := hcfg
  have hlt : l1 + l2 < 2 ^ 32 := hlen ▸ s.a2.isLt
  have h1 : (BitVec.ofNat 32 l1).toNat = l1 := Nat.mod_eq_of_lt (by omega)
  have h2 : (BitVec.ofNat 32 l2).toNat = l2 := Nat.mod_eq_of_lt (by omega)
  have hnext (a : Word) (ha : a.toNat + (l1 + l2) ≤ s.cfg.memSize) (hpos : 0 < l2) :
      (a + BitVec.ofNat 32 l1).toNat = a.toNat + l1 := toNat_add_length (by omega)
  rw [hlen] at hd
  constructor
  · intro hl hs hsep
    rw [hlen] at hl hs hsep
    have hsep := hsep.imp_left (congrArg BitVec.toNat)
    have hone := exec_xor_of_operands (src := s.a0.toNat) (dst := s.a1.toNat) hf hk hi ht hlen hl fun _ =>
      ⟨rfl, rfl, hs, hd, hsep⟩
    have hfirst := exec_xor_of_operands (u := s.setOperands s.a0 s.a1 (.ofNat 32 l1)) (src := s.a0.toNat) (dst := s.a1.toNat)
      hf hk hi ht h1      (Nat.le_trans (Nat.le_add_right l1 l2) hl) fun _ =>
      ⟨rfl, rfl, Nat.le_trans (by omega) hs, Nat.le_trans (by omega) hd, by omega⟩
    have huf : (((s.setOperands s.a0 s.a1 (.ofNat 32 l1)).generate s.a0.toNat s.a1.toNat l1 false).setOperands
        (s.a0 + .ofNat 32 l1) (s.a1 + .ofNat 32 l1) (.ofNat 32 l2)).fatal = false := by
      rw [State.setOperands_fatal, State.generate_fatal, State.setOperands_fatal, hf]
    obtain ⟨t, hsecond⟩ := exec_second_piece (.inl rfl) hwf ht
      (fun _ => partialOverlap_eq_false_iff.mpr (.inr hsep)) hlt (fun _ => rfl) huf hk hi rfl fun hterm =>
      exec_xor_of_operands huf hk hi hterm h2 (Nat.le_trans (Nat.le_add_left l2 l1) hl) fun hpos =>
        ⟨hnext _ hs hpos, hnext _ hd hpos, Nat.le_trans (by omega) hs, Nat.le_trans (by omega) hd, by omega⟩
    exact ⟨_, _, t, hone, hfirst, hsecond⟩
  · have hone := exec_ks_of_operands (dst := s.a1.toNat) hf hk hi ht hlen fun _ => ⟨rfl, hd⟩
    have hfirst := exec_ks_of_operands (u := s.setOperands s.a0 s.a1 (.ofNat 32 l1)) (dst := s.a1.toNat) hf hk hi ht h1
      fun _ => ⟨rfl, Nat.le_trans (by omega) hd⟩
    have huf : (((s.setOperands s.a0 s.a1 (.ofNat 32 l1)).generate 0 s.a1.toNat l1 true).setOperands
        s.a0 (s.a1 + .ofNat 32 l1) (.ofNat 32 l2)).fatal = false := by
      rw [State.setOperands_fatal, State.generate_fatal, State.setOperands_fatal, hf]
    obtain ⟨t, hsecond⟩ := exec_second_piece (src := 0) (src' := 0) (.inr rfl) hwf ht (by simp) hlt (by simp) huf hk hi
      rfl fun hterm => exec_ks_of_operands huf hk hi hterm h2 fun hpos => ⟨hnext _ hd hpos, Nat.le_trans (by omega) hd⟩
    exact ⟨_, _, t, hone, hfirst, hsecond⟩

end Sys2Proof.Machine
end

section
/-! SUPPORT. A worker's block step: the bytes it writes and the keystream it writes them with (43_parallel.md R195, R200, R201,
R207). It settles O55 and O56. -/

namespace Sys2Proof.Machine

/-! ### The block a worker computes (R195, R200) -/

/-- The block a worker does next, counted from BASE: k·BPC + j with j = BPC − blocks left (R200). -/
def Worker.block (w : Worker) (bpc : Nat) : Nat := w.k * bpc + (bpc - w.left)

theorem Worker.offset_eq (w : Worker) (off bpc : Nat) : w.offset off bpc = off + w.block bpc * 64 := rfl

section
variable {r : Region} {j : Job} {s : State} {w : Worker}

/-- A worker with blocks left does a block of the region. -/
theorem Region.Ok.block_lt (h : r.Ok j s) (hw : w ∈ r.running) (hl : 0 < w.left) :
    w.block s.bpc.toNat < r.n * s.bpc.toNat := by
  have hend := chunk_end_le (bpc := s.bpc.toNat) (h.lt_of_running hw)
  have hleft := (h.workers w hw).left
  unfold Worker.block
  omega

theorem Region.Ok.ctr_toNat (h : r.Ok j s) (hw : w ∈ r.running) :
    w.ctr.toNat = r.base.toNat + w.block s.bpc.toNat := by
  rw [(h.workers w hw).ctr, Worker.block, Nat.add_assoc]

/-- The counter of a worker with blocks left is below 2^64 − 1 (R195). -/
theorem Region.Ok.ctr_le (h : r.Ok j s) (hw : w ∈ r.running) (hl : 0 < w.left) : w.ctr.toNat ≤ 2 ^ 64 - 2 := by
  have hctr := h.ctr_toNat hw
  have hblock := h.block_lt hw hl
  have hwrap := h.noWrap
  omega

/-- A worker's keystream block is the context's at the worker's counter (R200). -/
theorem Worker.Ok.keystream_eq {e : Engine} {base bpc : Nat} (h : w.Ok e base bpc) : w.keystream = e.blockAt w.ctr := by
  rw [Worker.keystream, Engine.blockAt, h.const, h.key, h.nonce, h.rounds]

end

/-- A worker's move writes buffer memory and the phase only. -/
theorem State.workerMove_frame (s : State) (j : Job) (r : Region) (m : Move) :
    ∃ mem phase, s.workerMove j r m = { s with mem := mem, phase := phase } := by
  cases m with
  | admission k => exact ⟨_, _, rfl⟩
  | release k => exact ⟨_, _, rfl⟩
  | block k lane =>
    simp only [State.workerMove]
    split <;> exact ⟨_, _, rfl⟩

/-- No step of a region sets EXH or TERM (R207). -/
theorem JobStep.region_flags {s t : State} {j : Job} {r : Region} (ht : JobStep s j t) (hr : j.stage = .region r) :
    t.exh = s.exh ∧ t.term = s.term := by
  cases ht with
  | byte hstage _ _ => exact absurd hr (hstage r)
  | reposition _ _ _ => exact ⟨rfl, rfl⟩
  | move q m _ _ _ =>
    obtain ⟨mem, phase, he⟩ := s.workerMove_frame j q m
    rw [he]
    exact ⟨rfl, rfl⟩
  | wait _ _ _ _ => exact ⟨rfl, rfl⟩
  | enterRegion hstage _ _ | enterRest hstage _ | complete hstage _ | exhaust hstage _ _ _ | generate hstage _ _ _ =>
    simp [hstage] at hr

/-- Settles O55: the region ends below block 2^64 − 1, and its steps leave EXH and TERM at the 0 they start with. -/
theorem workersNeverReachTheLastBlock : Obligations.WorkersNeverReachTheLastBlock := by
  intro s j r h hj hr
  have hok := h.job j hj
  have hreg := hok.region r hr
  refine ⟨fun w hw hl => ?_, fun pick => ?_⟩
  · have hle := hreg.ctr_le hw hl
    exact ⟨hle, by simp only [Worker.advance]; bv_omega⟩
  · obtain ⟨hexh, hterm⟩ := (s.jobStep_effect j pick).region_flags hr
    exact ⟨hexh.trans hreg.exh, hterm.trans hok.term.1⟩

/-! ### The bytes of a block step (R200, R201) -/

/-- The byte writes of a block step for the listed bytes of the block, in their order. -/
def Memory.xorListed (m : Memory) (src dst : Nat) (zero : Bool) (ks : BlockBytes) (l : List (Fin 64)) : Memory :=
  l.foldl (fun (m : Memory) (t : Fin 64) => m.write (dst + t) (m.sourceByte zero (src + t) ^^^ ks[t])) m

theorem Memory.xorBlock_eq (m : Memory) (src dst : Nat) (zero : Bool) (ks : BlockBytes) :
    m.xorBlock src dst zero ks = m.xorListed src dst zero ks (List.finRange 64) := rfl

section
variable {m : Memory} {src dst : Nat} {zero : Bool}

theorem Memory.sourceByte_write_other (hwf : m.wf) {a x : Nat} (b : Byte) (hx : zero = false → x ≠ a) :
    (m.write a b).sourceByte zero x = m.sourceByte zero x := by
  cases zero with
  | true => rfl
  | false => exact Memory.read_write_other hwf b (hx rfl)

theorem Memory.read_xorListed_outside (hwf : m.wf) (ks : BlockBytes) (l : List (Fin 64)) {a : Nat}
    (ha : ∀ t ∈ l, a ≠ dst + t.val) : (m.xorListed src dst zero ks l).read a = m.read a := by
  induction l generalizing m with
  | nil => rfl
  | cons t l ih =>
    rw [List.forall_mem_cons] at ha
    exact (ih (Memory.write_wf hwf ..) ha.2).trans (Memory.read_write_other hwf _ ha.1)

/-- The ranges being equal or disjoint, no write of a block step reaches the source of a later one (R71, R74). -/
theorem Memory.read_xorListed (hwf : m.wf) (hov : zero = false → partialOverlap src dst 64 = false) (ks : BlockBytes)
    {l : List (Fin 64)} (hl : l.Nodup) {t : Fin 64} (ht : t ∈ l) :
    (m.xorListed src dst zero ks l).read (dst + t.val) = m.sourceByte zero (src + t.val) ^^^ ks[t] := by
  induction l generalizing m with
  | nil => cases ht
  | cons u l ih =>
    obtain ⟨hu, hl⟩ := List.nodup_cons.mp hl
    rcases List.mem_cons.mp ht with rfl | ht
    · refine (Memory.read_xorListed_outside (Memory.write_wf hwf ..) ks l fun v hv hav => hu ?_).trans
        (Memory.read_write_same hwf ..)
      rwa [Fin.ext (Nat.add_left_cancel hav)]
    · have hne : t.val ≠ u.val := fun htu => hu (Fin.ext htu ▸ ht)
      refine (ih (Memory.write_wf hwf ..) hl ht).trans ?_
      rw [Memory.sourceByte_write_other hwf _ fun hz => ?_]
      have hsep := partialOverlap_eq_false_iff.mp (hov hz)
      omega

theorem Memory.read_xorBlock_outside (hwf : m.wf) (ks : BlockBytes) {a : Nat} (ha : a < dst ∨ dst + 64 ≤ a) :
    (m.xorBlock src dst zero ks).read a = m.read a :=
  Memory.read_xorListed_outside hwf ks _ fun t _ => by omega

theorem Memory.read_xorBlock (hwf : m.wf) (hov : zero = false → partialOverlap src dst 64 = false) (ks : BlockBytes)
    (t : Fin 64) : (m.xorBlock src dst zero ks).read (dst + t.val) = m.sourceByte zero (src + t.val) ^^^ ks[t] :=
  Memory.read_xorListed hwf hov ks (List.nodup_finRange 64) (List.mem_finRange t)

end

/-- A range within two ranges that pass R71's test passes it too. -/
theorem partialOverlap_within {src dst n i k : Nat} (h : partialOverlap src dst n = false) (hi : i + k ≤ n) :
    partialOverlap (src + i) (dst + i) k = false := by
  rw [partialOverlap_eq_false_iff] at h ⊢
  omega

section
variable {r : Region} {j : Job} {s : State} {w : Worker}

/-- A block step writes 64 bytes (R200). -/
theorem Worker.read_writeBlock_outside (w : Worker) (hwf : s.mem.wf) (j : Job) (off bpc : Nat) {a : Nat}
    (ha : a < j.dst + w.offset off bpc ∨ j.dst + w.offset off bpc + 64 ≤ a) :
    (w.writeBlock j off bpc s.mem).read a = s.mem.read a :=
  Memory.read_xorBlock_outside hwf _ ha

/-- Each byte of the block is source XOR keystream (R200). -/
theorem Region.Ok.read_writeBlock (h : r.Ok j s) (hok : j.Ok s) (hwf : s.mem.wf) (hw : w ∈ r.running) (hl : 0 < w.left)
    (t : Fin 64) : (w.writeBlock j r.off s.bpc.toNat s.mem).read (j.dst + w.offset r.off s.bpc.toNat + t.val) =
      s.mem.sourceByte j.zero (j.src + w.offset r.off s.bpc.toNat + t.val) ^^^ (s.blockAt w.ctr)[t] := by
  have hov (hz : j.zero = false) := partialOverlap_within (hok.src hz).2 (h.block_inside hw hl)
  rw [Worker.writeBlock, Memory.read_xorBlock hwf hov, (h.workers w hw).keystream_eq]

end

/-- Settles O56: the block lies within the worker's chunk, and its source and destination coincide or are disjoint. -/
theorem workerWritesOnlyItsOwnChunk : Obligations.WorkerWritesOnlyItsOwnChunk := by
  intro s j r w h hj hr hw hl
  have hok := h.job j hj
  have hreg := hok.region r hr
  refine ⟨fun a ha => w.read_writeBlock_outside h.memWf j _ _ ?_, hreg.read_writeBlock hok h.memWf hw hl⟩
  have hleft := (hreg.workers w hw).left
  have hchunk (k : Nat) : k * (64 * s.bpc.toNat) = k * s.bpc.toNat * 64 := by ring
  rw [hchunk, hchunk, Nat.add_one_mul] at ha
  rw [Worker.offset_eq, Worker.block]
  omega

end Sys2Proof.Machine
end

section
/-! SUPPORT. Runs of atomic steps: what every step of the core keeps holds at the end of a run, and every step uses up one of
a bounded number of steps left (43_parallel.md R203, 70_reset_and_hazards.md R288). It settles O58. -/

namespace Sys2Proof.Machine

/-! ### Runs of atomic steps -/

/-- No move of the core adds or takes a turn. -/
theorem CoreStep.agenda {s t : State} (ht : CoreStep s t) : t.agenda = s.agenda := by
  cases ht with
  | completed w i _ _ _ _ => cases i <;> rfl
  | job j t _ ht => rw [ht.frame]
  | _ => rfl

theorem step_fine {s : State} {p : Nat} {ps : List Nat} (h : s.agenda = (p :: ps).map .fine) :
    step s = ({ s with agenda := ps.map .fine } : State).fineMove p := step_of_turn h

theorem State.Inv.withAgenda {s : State} (h : s.Inv) (l : List Turn) : ({ s with agenda := l } : State).Inv :=
  h.congr rfl ⟨rfl, rfl, rfl⟩ ⟨rfl, rfl⟩ rfl rfl

/-- What every atomic step keeps, whatever the turns to come, holds at the end of a run of atomic steps. -/
theorem steps_fine_keeps {P : State → Prop} (hmove : ∀ s p t, P s → s.fineMove p = .next t → P t)
    (hagenda : ∀ s l, P s → P { s with agenda := l }) {n : Nat} {picks : List Nat} {s t : State}
    (ha : s.agenda = picks.map .fine) (hn : n ≤ picks.length) (hs : P s) (h : steps n s = .next t) : P t := by
  induction n generalizing s picks with
  | zero => cases h; exact hs
  | succ n ih =>
    cases picks with
    | nil => simp at hn
    | cons p ps =>
      obtain ⟨u, hu⟩ := ({ s with agenda := ps.map .fine } : State).fineMove_next p
      rw [steps_succ_of_next ((step_fine ha).trans hu)] at h
      exact ih (State.fineMove_effect hu).agenda (by simpa using hn) (hmove _ p u (hagenda s _ hs) hu) h

/-! ### The job of a command -/

/-- A command that is neither dropped nor rejected has its effect. -/
theorem State.afterCommand_of_pass {s : State} {i : Instr} (h : ¬ (s.fatal || (s.checkOf i).isSome) = true) :
    s.afterCommand i = s.effectOf i := by
  rw [Bool.or_eq_true, not_or, Bool.not_eq_true, Bool.not_eq_true, Option.isSome_eq_false_iff,
    Option.isNone_iff_eq_none] at h
  simp [State.afterCommand, h.1, h.2]

/-- The job of a command: A2 bytes from the start, and SeqRun over them is the command's effect (R177, R178, R190). -/
theorem State.jobOf_eq_some {s : State} {i : Instr} {j : Job} (hj : s.jobOf i = some j) :
    ∃ src dst zero, j = s.newJob src dst s.a2.toNat zero ∧ s.afterCommand i = s.generate src dst s.a2.toNat zero := by
  cases i with
  | xor =>
    obtain ⟨hpass, hj⟩ := Option.ite_none_left_eq_some.mp hj
    exact ⟨_, _, _, (Option.some.inj hj).symm, State.afterCommand_of_pass hpass⟩
  | ks =>
    obtain ⟨hpass, hj⟩ := Option.ite_none_left_eq_some.mp hj
    exact ⟨_, _, _, (Option.some.inj hj).symm, State.afterCommand_of_pass hpass⟩
  | _ => cases hj

/-! ### The moves of a region use up its work (R203) -/

/-- The steps of the workers that a region still needs: for a chunk not yet admitted its admission, BPC blocks and its
release, and for a running worker the blocks it has left and its release. -/
def Region.work (r : Region) (bpc : Nat) : Nat :=
  r.pending.length * (bpc + 2) + (r.running.map (·.left + 1)).sum

theorem Region.work_admission {r : Region} {e : Engine} {bpc k : Nat} (hk : k ∈ r.pending) :
    (r.admission e bpc k).work bpc < r.work bpc := by
  have hlen : (r.pending.erase k).length + 1 = r.pending.length := by
    rw [List.length_erase_of_mem hk]
    exact Nat.succ_pred_eq_of_pos (List.length_pos_of_mem hk)
  simp only [Region.work, Region.admission, newWorker, List.map_append, List.sum_append, List.map_singleton,
    List.sum_singleton, ← hlen, Nat.add_one_mul]
  omega

section
variable {r : Region} {j : Job} {s : State} {w : Worker}

theorem Region.Ok.work_release (h : r.Ok j s) (hw : w ∈ r.running) (bpc : Nat) : (r.release w.k).work bpc < r.work bpc := by
  have hrest : r.running.filter (·.k ≠ w.k) = r.running.erase w := by
    rw [h.running_nodup.of_map.erase_eq_filter]
    refine List.filter_congr fun v hv => ?_
    have hinj : v.k = w.k ↔ v = w := ⟨List.inj_on_of_nodup_map h.running_nodup hv hw, congrArg _⟩
    simp [bne, Bool.beq_eq_decide_eq, hinj]
  have hsum := List.sum_map_erase (fun v : Worker => v.left + 1) hw
  simp only [Region.work, Region.release, hrest]
  omega

theorem Region.work_advance (hw : w ∈ r.running) (hl : 0 < w.left) (bpc : Nat) : (r.advance w.k).work bpc < r.work bpc := by
  have hsum : ((r.running.map fun v => if v.k = w.k then v.advance else v).map (·.left + 1)).sum <
      (r.running.map (·.left + 1)).sum := by
    rw [List.map_map]
    refine List.sum_lt_sum _ _ (fun v _ => ?_) ⟨w, hw, ?_⟩
    · simp only [Function.comp]
      split
      · exact Nat.succ_le_succ (Nat.sub_le _ _)
      · exact Nat.le_refl _
    · simp only [Function.comp, if_true, Worker.advance]
      omega
  simp only [Region.work, Region.advance]
  omega

/-- Before the barrier some step of the workers is enabled: a running worker's, or, where none runs and all slots are free,
an admission (R203). -/
theorem Region.Ok.moves_ne_nil (h : r.Ok j s) (hs : s.Inv) (hb : r.barrier = false) : r.moves s.cfg.numLanes ≠ [] := by
  obtain ⟨_, _, hlanes, _⟩ := hs.cfg
  suffices ∃ m, m ∈ r.moves s.cfg.numLanes from List.ne_nil_of_mem this.choose_spec
  cases hrun : r.running with
  | cons w ws =>
    have hw : w ∈ r.running := by simp [hrun]
    rcases Nat.eq_zero_or_pos w.left with hl | hl
    · exact ⟨_, Region.mem_moves.mpr (.inr (.inr ⟨w, hw, hl, rfl⟩))⟩
    · exact ⟨_, Region.mem_moves.mpr (.inr (.inl ⟨w, hw, hl, 0, hlanes, rfl⟩))⟩
  | nil =>
    have hsem : 0 < r.sem := by
      have hslots := h.slots
      have hmaxw := BitVec.toNat_pos_of_ne_zero hs.tuning.2
      rw [hrun, List.length_nil] at hslots
      omega
    have hnot : ¬ ∀ k, k < r.n → k ∈ r.done := fun hall => by simp [Region.barrier_iff.mpr hall] at hb
    push Not at hnot
    obtain ⟨k, hk, hdone⟩ := hnot
    have hmem := h.partition.mem_iff.mpr (List.mem_range.mpr hk)
    have hpending : k ∈ r.pending := by simpa [hrun, hdone] using hmem
    exact ⟨_, Region.mem_moves.mpr (.inl ⟨hsem, k, hpending, rfl⟩)⟩

/-! ### The steps left -/

/-- No more than this many atomic steps are left of a command: two for each byte to come (a GenerateBlock and an XOR step),
the region's, and those of the sequencer. -/
def State.stepsLeft (s : State) : Nat :=
  match s.phase with
  | .idle => 0
  | .accepted _ => 2 * s.a2.toNat + 4
  | .running j =>
    match j.stage with
    | .lead => 2 * (j.len - j.i) + 3
    | .region r => 2 * (j.len - (j.i + r.n * (64 * s.bpc.toNat))) + 3 + r.work s.bpc.toNat
    | .rest => 2 * (j.len - j.i) + if s.next = 64 then 2 else 1

theorem State.stepsLeft_of_idle (hp : s.phase = .idle) : s.stepsLeft = 0 := by simp [State.stepsLeft, hp]

theorem State.stepsLeft_of_accepted {v : Word} (hp : s.phase = .accepted v) : s.stepsLeft = 2 * s.a2.toNat + 4 := by
  simp [State.stepsLeft, hp]

theorem State.stepsLeft_of_lead (hp : s.phase = .running j) (hst : j.stage = .lead) :
    s.stepsLeft = 2 * (j.len - j.i) + 3 := by
  simp [State.stepsLeft, hp, hst]

theorem State.stepsLeft_of_region (hp : s.phase = .running j) (hst : j.stage = .region r) :
    s.stepsLeft = 2 * (j.len - (j.i + r.n * (64 * s.bpc.toNat))) + 3 + r.work s.bpc.toNat := by
  simp [State.stepsLeft, hp, hst]

theorem State.stepsLeft_of_rest (hp : s.phase = .running j) (hst : j.stage = .rest) :
    s.stepsLeft = 2 * (j.len - j.i) + if s.next = 64 then 2 else 1 := by
  simp [State.stepsLeft, hp, hst]

/-- A region takes fewer steps than the two for each of its bytes (R194). -/
theorem Region.Ok.work_lt (h : r.Ok j s) (hb : s.bpc ≠ 0) (hp : r.pending.length = r.n) (hr : r.running = []) :
    r.work s.bpc.toNat < 2 * (r.n * (64 * s.bpc.toNat)) := by
  have hblocks := Nat.le_mul_of_pos_right r.n (BitVec.toNat_pos_of_ne_zero hb)
  have hchunks := h.chunks
  have hbytes : r.n * (64 * s.bpc.toNat) = 64 * (r.n * s.bpc.toNat) := by ring
  rw [Region.work, hp, hr, hbytes, Nat.mul_add]
  simp only [List.map_nil, List.sum_nil]
  omega

end

/-- A move of the workers uses up a step. -/
theorem State.stepsLeft_workerMove {s : State} {j : Job} {r : Region} {m : Move} (h : s.Inv) (hj : s.phase = .running j)
    (hr : j.stage = .region r) (hm : m ∈ r.moves s.cfg.numLanes) : (s.workerMove j r m).stepsLeft < s.stepsLeft := by
  have hok := (h.job j hj).region r hr
  have hgoes {q : Region} {mem : Memory} (hn : q.n = r.n) (hq : q.work s.bpc.toNat < r.work s.bpc.toNat) :
      (({ s with mem := mem } : State).withRegion j q).stepsLeft < s.stepsLeft := by
    rw [State.stepsLeft_of_region hj hr, State.stepsLeft_of_region (State.withRegion_phase ..) rfl, hn]
    exact Nat.add_lt_add_left hq _
  rcases Region.mem_moves.mp hm with ⟨_, k, hk, rfl⟩ | ⟨w, hw, hl, lane, _, rfl⟩ | ⟨w, hw, _, rfl⟩
  · exact hgoes (mem := s.mem) rfl (Region.work_admission hk)
  · simp only [State.workerMove, hok.find_running hw]
    exact hgoes rfl (Region.work_advance hw hl _)
  · exact hgoes (mem := s.mem) rfl (hok.work_release hw _)

/-- Every atomic step of a running job uses up one of the steps left. -/
theorem JobStep.stepsLeft_lt {s t : State} {j : Job} (ht : JobStep s j t) (h : s.Inv) (hj : s.phase = .running j) :
    t.stepsLeft < s.stepsLeft := by
  have hok := h.job j hj
  cases ht with
  | byte hstage hi hn =>
    cases hst : j.stage with
    | lead =>
      rw [State.stepsLeft_of_lead hj hst, State.stepsLeft_of_lead (s.byteStep_phase j) hst]
      simp only
      omega
    | region r => exact absurd hst (hstage r)
    | rest =>
      rw [State.stepsLeft_of_rest hj hst, State.stepsLeft_of_rest (s.byteStep_phase j) hst, if_neg hn]
      simp only
      split <;> omega
  | enterRegion hstage hn hruns =>
    have hnew := h.newRegion_ok hn hok.reached hruns
    have hwork := hnew.work_lt h.tuning.1 (List.length_range ..) rfl
    have hinside := hnew.inside
    rw [hnew.off] at hinside
    rw [State.stepsLeft_of_lead hj hstage, State.stepsLeft_of_region (State.withRegion_phase ..) rfl,
      State.withRegion_bpc]
    simp only
    omega
  | enterRest hstage _ =>
    rw [State.stepsLeft_of_lead hj hstage, State.stepsLeft_of_rest rfl rfl]
    simp only
    split <;> omega
  | reposition r hstage _ =>
    rw [State.stepsLeft_of_region hj hstage, State.stepsLeft_of_rest rfl rfl]
    simp only
    split <;> omega
  | move r m hstage _ hm => exact State.stepsLeft_workerMove h hj hstage hm
  | wait r hstage hb hm => exact absurd hm ((hok.region r hstage).moves_ne_nil h hb)
  | complete hstage _ =>
    rw [State.stepsLeft_of_rest hj hstage, State.stepsLeft_of_idle (State.finish_phase ..)]
    split <;> omega
  | exhaust hstage hi _ _ =>
    rw [State.stepsLeft_of_rest hj hstage, State.stepsLeft_of_idle (State.finish_phase ..)]
    omega
  | generate hstage _ hn _ =>
    have hafter := State.stepsLeft_of_rest (s := { s with toEngine := s.toEngine.generateBlock }) hj hstage
    rw [State.stepsLeft_of_rest hj hstage, hafter, if_pos hn, if_neg (by simp)]
    omega

/-! ### A command completes (R203) -/

/-- While BUSY = 1 every move of the core uses up one of the steps left. -/
theorem CoreStep.stepsLeft_lt {s t : State} (ht : CoreStep s t) (h : s.Inv) (hp : s.phase ≠ .idle) :
    t.stepsLeft < s.stepsLeft := by
  have hend {w : Word} {t : State} (hw : s.phase = .accepted w) (ht : t.phase = .idle) : t.stepsLeft < s.stepsLeft := by
    rw [State.stepsLeft_of_idle ht, State.stepsLeft_of_accepted hw]
    omega
  cases ht with
  | idle hi => exact absurd hi hp
  | dropped w hw _ => exact hend hw rfl
  | rejected w c hw _ => exact hend hw rfl
  | completed w i hw _ _ _ => exact hend hw (by cases i <;> rfl)
  | begun w i j hw _ hj =>
    obtain ⟨src, dst, zero, rfl, _⟩ := State.jobOf_eq_some hj
    rw [State.stepsLeft_of_accepted hw, State.stepsLeft_of_lead rfl rfl]
    exact Nat.lt_succ_self _
  | job j t hj ht => exact ht.stepsLeft_lt h hj

/-- A run of as many atomic steps as are left ends the command. -/
theorem steps_fine_complete {n : Nat} {picks : List Nat} {s : State} (h : s.Inv) (ha : s.agenda = picks.map .fine)
    (hleft : s.stepsLeft ≤ n) (hn : n ≤ picks.length) : ∃ m t, m ≤ n ∧ steps m s = .next t ∧ t.phase = .idle := by
  induction n generalizing s picks with
  | zero =>
    refine ⟨0, s, Nat.le_refl _, rfl, by_contra fun hp => ?_⟩
    obtain ⟨t, ht⟩ := s.fineMove_next 0
    have hlt := (State.fineMove_effect ht).stepsLeft_lt h hp
    omega
  | succ n ih =>
    by_cases hp : s.phase = .idle
    · exact ⟨0, s, Nat.zero_le _, rfl, hp⟩
    · cases picks with
      | nil => simp at hn
      | cons p ps =>
        have hpop := h.withAgenda (ps.map .fine)
        obtain ⟨u, hu⟩ := ({ s with agenda := ps.map .fine } : State).fineMove_next p
        have hmove := State.fineMove_effect hu
        have hlt : u.stepsLeft < s.stepsLeft := hmove.stepsLeft_lt hpop hp
        obtain ⟨m, t, hm, ht, hidle⟩ := ih (hmove.inv hpop) hmove.agenda (by omega) (by simpa using hn)
        exact ⟨m + 1, t, Nat.succ_le_succ hm, (steps_succ_of_next ((step_fine ha).trans hu) m).trans ht, hidle⟩

/-- Settles O58: an accepted command has 2·L + 4 steps left, and every atomic step uses one up. -/
theorem everyInterleavingCompletes : Obligations.EveryInterleavingCompletes := by
  intro s w i picks h hp _ ha hlen
  exact steps_fine_complete h ha (Nat.le_of_eq (State.stepsLeft_of_accepted hp)) hlen

end Sys2Proof.Machine
end

section
/-! SUPPORT. Which blocks of a region are written, and that once all are, the reposition leaves the engine of a SeqRun over the
region's bytes (43_parallel.md R200 to R204). -/

namespace Sys2Proof.Machine

/-! ### The blocks written so far -/

/-- Block `b` of a region, counted from BASE, has been written: its chunk is done, or its worker is past it (R199, R200). -/
def Region.written (r : Region) (bpc b : Nat) : Prop :=
  b / bpc ∈ r.done ∨ ∃ w ∈ r.running, w.k = b / bpc ∧ b % bpc < bpc - w.left

/-- At the barrier every block of the region is written (R203). -/
theorem Region.written_of_barrier {r : Region} {bpc b : Nat} (hr : r.barrier = true) (hb : b < r.n * bpc) :
    r.written bpc b :=
  .inl (Region.barrier_iff.mp hr _ (Nat.div_lt_of_lt_mul (Nat.mul_comm r.n bpc ▸ hb)))

/-- A worker begins with no block written (R197). -/
theorem Region.written_admission {r : Region} {e : Engine} {bpc k b : Nat} :
    (r.admission e bpc k).written bpc b ↔ r.written bpc b := by
  simp [Region.written, Region.admission, newWorker, or_and_right, exists_or]

/-- A worker is released with all its blocks written (R199). -/
theorem Region.written_release {r : Region} {w : Worker} {bpc b : Nat} (hbpc : 0 < bpc) (hw : w ∈ r.running)
    (hl : w.left = 0) : (r.release w.k).written bpc b ↔ r.written bpc b := by
  constructor
  · rintro (hd | ⟨v, hv, hb⟩)
    · rcases List.mem_append.mp hd with hd | hd
      · exact .inl hd
      · exact .inr ⟨w, hw, (List.mem_singleton.mp hd).symm, by simpa [hl] using Nat.mod_lt b hbpc⟩
    · exact .inr ⟨v, List.mem_of_mem_filter hv, hb⟩
  · rintro (hd | ⟨v, hv, hk, hb⟩)
    · exact .inl (List.mem_append_left _ hd)
    · by_cases hvw : v.k = w.k
      · exact .inl (List.mem_append_right _ (by simp [← hk, hvw]))
      · exact .inr ⟨v, by simp [Region.release, hv, hvw], hk, hb⟩

section
variable {r : Region} {j : Job} {s : State} {w : Worker}

theorem Worker.block_div_mod {bpc : Nat} (hl : 0 < w.left) (hle : w.left ≤ bpc) :
    w.block bpc / bpc = w.k ∧ w.block bpc % bpc = bpc - w.left := by
  have hlt : bpc - w.left < bpc := by omega
  rw [Worker.block, Nat.mul_comm]
  exact ⟨by rw [Nat.mul_add_div (by omega), Nat.div_eq_of_lt hlt, Nat.add_zero],
    by rw [Nat.mul_add_mod, Nat.mod_eq_of_lt hlt]⟩

theorem Region.Ok.notMem_done (h : r.Ok j s) (hw : w ∈ r.running) : w.k ∉ r.done := by
  have hnodup := (h.partition.nodup_iff.mpr List.nodup_range).of_append_right
  exact (List.nodup_append'.mp hnodup).2.2 (List.mem_map_of_mem hw)

theorem Region.Ok.not_written_block (h : r.Ok j s) (hw : w ∈ r.running) (hl : 0 < w.left) :
    ¬ r.written s.bpc.toNat (w.block s.bpc.toNat) := by
  obtain ⟨hdiv, hmod⟩ := Worker.block_div_mod hl (h.workers w hw).left
  rw [Region.written, hdiv, hmod]
  rintro (hd | ⟨v, hv, hk, hlt⟩)
  · exact h.notMem_done hw hd
  · obtain rfl : v = w := List.inj_on_of_nodup_map h.running_nodup hv hw hk
    exact Nat.lt_irrefl _ hlt

/-- A block step writes the worker's block and no other (R200). -/
theorem Region.Ok.written_advance (h : r.Ok j s) (hw : w ∈ r.running) (hl : 0 < w.left) {b : Nat} :
    (r.advance w.k).written s.bpc.toNat b ↔ r.written s.bpc.toNat b ∨ b = w.block s.bpc.toNat := by
  have hle := (h.workers w hw).left
  obtain ⟨hdiv, hmod⟩ := Worker.block_div_mod hl hle
  constructor
  · rintro (hd | ⟨v, hv, hk, hb⟩)
    · exact .inl (.inl hd)
    · obtain ⟨u, hu, rfl⟩ := List.mem_map.mp hv
      by_cases huw : u.k = w.k
      · rw [if_pos huw] at hk hb
        obtain rfl : u = w := List.inj_on_of_nodup_map h.running_nodup hu hw huw
        by_cases hlt : b % s.bpc.toNat < s.bpc.toNat - u.left
        · exact .inl (.inr ⟨u, hu, hk, hlt⟩)
        · have hmod : b % s.bpc.toNat = s.bpc.toNat - u.left := by
            simp only [Worker.advance] at hb
            omega
          rw [Worker.block, show u.k = b / s.bpc.toNat from hk, ← hmod]
          exact .inr (Nat.div_add_mod' b _).symm
      · rw [if_neg huw] at hk hb
        exact .inl (.inr ⟨u, hu, hk, hb⟩)
  · rintro ((hd | ⟨v, hv, hk, hb⟩) | rfl)
    · exact .inl hd
    · refine .inr ⟨_, List.mem_map_of_mem hv, ?_⟩
      split
      · exact ⟨hk, by simp only [Worker.advance]; omega⟩
      · exact ⟨hk, hb⟩
    · refine .inr ⟨_, List.mem_map_of_mem hw, ?_⟩
      rw [if_pos rfl, hdiv, hmod]
      exact ⟨rfl, by simp only [Worker.advance]; omega⟩

end

/-! ### The memory of a region (R202) -/

/-- How far a region has come: `e` is the engine at its start, `f` the present one. Buffer memory alone has changed, and
there the blocks written hold source XOR keystream (R200, R201). -/
structure Region.Progress (r : Region) (j : Job) (bpc : Nat) (e f : Engine) : Prop where
  engine : f = { e with mem := f.mem }
  wf : e.mem.wf
  outside : ∀ a, a < j.dst + r.off ∨ j.dst + r.off + r.n * (64 * bpc) ≤ a → f.mem.read a = e.mem.read a
  written : ∀ (b : Nat) (t : Fin 64), b < r.n * bpc → r.written bpc b →
    f.mem.read (j.dst + r.off + (b * 64 + t.val)) =
      e.mem.sourceByte j.zero (j.src + r.off + (b * 64 + t.val)) ^^^ (e.blockAt (e.ctr + BitVec.ofNat 64 b))[t]
  unwritten : ∀ (b : Nat) (t : Fin 64), b < r.n * bpc → ¬ r.written bpc b →
    f.mem.read (j.dst + r.off + (b * 64 + t.val)) = e.mem.read (j.dst + r.off + (b * 64 + t.val))

/-- How far a region has come does not read the job's stage. -/
theorem Region.Progress.withStage {r : Region} {j : Job} {bpc : Nat} {e f : Engine} (h : r.Progress j bpc e f)
    (stage : Stage) : r.Progress { j with stage := stage } bpc e f :=
  ⟨h.engine, h.wf, h.outside, h.written, h.unwritten⟩

/-- A new region has written nothing. -/
theorem State.newRegion_progress {s : State} (hwf : s.mem.wf) (j : Job) (off rest : Nat) :
    (s.newRegion off rest).Progress j s.bpc.toNat s.toEngine s.toEngine where
  engine := rfl
  wf := hwf
  outside := fun _ _ => rfl
  written := fun b t _ hw => by simp [Region.written, State.newRegion] at hw
  unwritten := fun _ _ _ _ => rfl

/-- An admission or a release writes nothing. -/
theorem Region.Progress.congr {r q : Region} {j : Job} {bpc : Nat} {e f : Engine} (h : r.Progress j bpc e f)
    (hq : q.off = r.off ∧ q.n = r.n) (hw : ∀ b, q.written bpc b ↔ r.written bpc b) : q.Progress j bpc e f := by
  obtain ⟨hoff, hn⟩ := hq
  exact {
    engine := h.engine
    wf := h.wf
    outside := by rw [hoff, hn]; exact h.outside
    written := fun b t hb hwb => by rw [hoff]; exact h.written b t (hn ▸ hb) ((hw b).mp hwb)
    unwritten := fun b t hb hwb => by rw [hoff]; exact h.unwritten b t (hn ▸ hb) (mt (hw b).mpr hwb) }

section
variable {r : Region} {j : Job} {s : State} {e : Engine}

/-- While a region runs the engine's registers are those of its start. -/
theorem Region.Progress.registers (hp : r.Progress j s.bpc.toNat e s.toEngine) (h : r.Ok j s) :
    e.next = 64 ∧ e.exh = false ∧ r.base = e.ctr :=
  ⟨(congrArg Engine.next hp.engine :).symm.trans h.next, (congrArg Engine.exh hp.engine :).symm.trans h.exh,
    h.base.trans (congrArg Engine.ctr hp.engine :)⟩

/-- The source of a block not yet written is as it was: no worker writes it but in place (R74, R201). -/
theorem Region.Progress.sourceByte_unwritten (hp : r.Progress j s.bpc.toNat e s.toEngine) (h : r.Ok j s) (hok : j.Ok s)
    {b : Nat} (t : Fin 64) (hb : b < r.n * s.bpc.toNat) (hw : ¬ r.written s.bpc.toNat b) :
    s.mem.sourceByte j.zero (j.src + r.off + (b * 64 + t.val)) =
      e.mem.sourceByte j.zero (j.src + r.off + (b * 64 + t.val)) := by
  cases hz : j.zero with
  | true => rfl
  | false =>
    have hinside := h.inside
    have hbytes := Nat.mul_left_comm r.n 64 s.bpc.toNat
    by_cases hsrc : j.src = j.dst
    · rw [hsrc]
      exact hp.unwritten b t hb hw
    · have hsep := partialOverlap_eq_false_iff.mp (hok.src hz).2
      exact hp.outside _ (by omega)

/-- A block step leaves the bytes of the other blocks and those outside the region (R201). -/
theorem Region.Ok.read_writeBlock_other {w : Worker} (h : r.Ok j s) (hwf : s.mem.wf) (hw : w ∈ r.running)
    (hl : 0 < w.left) :
    (∀ a, a < j.dst + r.off ∨ j.dst + r.off + r.n * (64 * s.bpc.toNat) ≤ a →
      (w.writeBlock j r.off s.bpc.toNat s.mem).read a = s.mem.read a) ∧
    ∀ (b : Nat) (t : Fin 64), b ≠ w.block s.bpc.toNat →
      (w.writeBlock j r.off s.bpc.toNat s.mem).read (j.dst + r.off + (b * 64 + t.val)) =
        s.mem.read (j.dst + r.off + (b * 64 + t.val)) := by
  have hlt := h.block_lt hw hl
  have hbytes := Nat.mul_left_comm r.n 64 s.bpc.toNat
  refine ⟨fun a ha => w.read_writeBlock_outside hwf j _ _ ?_, fun b t hb => w.read_writeBlock_outside hwf j _ _ ?_⟩
  · rw [Worker.offset_eq]
    omega
  · rw [Worker.offset_eq]
    omega

/-- A block step writes the right bytes of its block, and leaves every other byte (R200, R201). -/
theorem Region.Progress.block {w : Worker} (hp : r.Progress j s.bpc.toNat e s.toEngine) (h : r.Ok j s) (hok : j.Ok s)
    (hwf : s.mem.wf) (hw : w ∈ r.running) (hl : 0 < w.left) :
    (r.advance w.k).Progress j s.bpc.toNat e { s.toEngine with mem := w.writeBlock j r.off s.bpc.toNat s.mem } := by
  obtain ⟨houtside, hother⟩ := h.read_writeBlock_other hwf hw hl
  have hblock := h.read_writeBlock hok hwf hw hl
  obtain ⟨_, _, hbase⟩ := hp.registers h
  have hctr : w.ctr = e.ctr + BitVec.ofNat 64 (w.block s.bpc.toNat) := by
    have hwctr := h.ctr_toNat hw
    have hwrap := h.noWrap
    rw [← hbase]
    bv_omega
  simp only [Worker.offset_eq, ← Nat.add_assoc] at hblock
  generalize w.writeBlock j r.off s.bpc.toNat s.mem = m at *
  exact {
    engine := congrArg (fun g : Engine => { g with mem := m }) hp.engine
    wf := hp.wf
    outside := fun a ha => (houtside a ha).trans (hp.outside a ha)
    written := fun b t hb hwb => by
      by_cases hbw : b = w.block s.bpc.toNat
      · subst hbw
        refine (congrArg m.read (Nat.add_assoc ..)).symm.trans ((hblock t).trans ?_)
        rw [Nat.add_assoc, hp.sourceByte_unwritten h hok t hb (h.not_written_block hw hl), hctr, hp.engine]
        rfl
      · exact (hother b t hbw).trans (hp.written b t hb (((h.written_advance hw hl).mp hwb).resolve_right hbw))
    unwritten := fun b t hb hwb => by
      rw [h.written_advance hw hl, not_or] at hwb
      exact (hother b t hwb.2).trans (hp.unwritten b t hb hwb.1) }

end

/-! ### The reposition (R204) -/

/-- With the buffered block used up, the byte `t` bytes ahead is byte `t mod 64` of the block `t / 64` blocks on. -/
theorem Engine.streamByte_of_used_up {e : Engine} (hn : e.next = 64) (t : Nat) :
    e.streamByte t = (e.blockAt (e.ctr + BitVec.ofNat 64 (t / 64)))[t % 64]'(Nat.mod_lt _ (by decide)) := by
  have hnext : e.next.val = 64 := congrArg Fin.val hn
  simp only [Engine.streamByte, hnext, Nat.add_mod_left, show ¬ 64 + t < 64 by omega, dite_false,
    show (64 + t) / 64 - 1 = t / 64 by omega]

/-- Going on by whole blocks with the buffered block used up, before the counter wraps, is the reposition (R204). -/
theorem Engine.skip_blocks {e : Engine} {c : Nat} (hn : e.next = 64) (he : e.exh = false) (hpos : 0 < c)
    (hwrap : e.ctr.toNat + c ≤ 2 ^ 64 - 1) : e.skip (64 * c) = e.reposition e.ctr c := by
  have hnext : e.next.val = 64 := congrArg Fin.val hn
  have hblocks : e.blocksFor (64 * c) = c := by
    rw [Engine.blocksFor, hnext]
    omega
  have hlast : e.ctr + BitVec.ofNat 64 (c - 1) = e.ctr + BitVec.ofNat 64 c - 1 := by bv_omega
  have hcursor : 64 + 64 * c - 64 * c = 64 := by omega
  simp [Engine.skip, Engine.reposition, hblocks, hlast, hcursor, he, hnext, hpos, Nat.pos_iff_ne_zero.mp hpos]
  omega

section
variable {r : Region} {j : Job} {s : State} {e : Engine}

/-- At the barrier buffer memory is as SeqRun over the region's bytes leaves it (R202, R203). -/
theorem Region.Progress.mem_eq (hp : r.Progress j s.bpc.toNat e s.toEngine) (h : r.Ok j s) (hwf : s.mem.wf)
    (hb : r.barrier = true) :
    s.mem = (e.produce (j.src + r.off) (j.dst + r.off) j.zero (r.n * (64 * s.bpc.toNat))).mem := by
  refine canonicalMemoriesThatReadAlikeAreEqual _ _ hwf (Memory.writeBytes_wf hp.wf ..) fun a => ?_
  rw [Engine.read_produce hp.wf]
  split
  next ha =>
    obtain ⟨q, rfl⟩ := Nat.exists_eq_add_of_le ha.1
    have hq : q / 64 < r.n * s.bpc.toNat := by
      have hbytes := Nat.mul_left_comm r.n 64 s.bpc.toNat
      omega
    obtain ⟨hused, _, _⟩ := hp.registers h
    have hread := hp.written (q / 64) ⟨q % 64, Nat.mod_lt _ (by decide)⟩ hq (Region.written_of_barrier hb hq)
    rw [Nat.div_add_mod'] at hread
    rw [hread, Nat.add_sub_cancel_left, Engine.streamByte_of_used_up hused]
    rfl
  next ha => exact hp.outside a (by omega)

/-- At the barrier the reposition leaves the engine of SeqRun over the region's bytes (R204, R210). -/
theorem Region.Progress.reposition_eq (hp : r.Progress j s.bpc.toNat e s.toEngine) (h : r.Ok j s) (hwf : s.mem.wf)
    (hbpc : s.bpc ≠ 0) (hb : r.barrier = true) :
    e.produce (j.src + r.off) (j.dst + r.off) j.zero (r.n * (64 * s.bpc.toNat)) =
      s.toEngine.reposition r.base (r.n * s.bpc.toNat) := by
  obtain ⟨hused, hexh, hbase⟩ := hp.registers h
  have hpos : 0 < r.n * s.bpc.toNat := Nat.mul_pos h.chunks (BitVec.toNat_pos_of_ne_zero hbpc)
  have hwrap := h.noWrap
  calc e.produce (j.src + r.off) (j.dst + r.off) j.zero (r.n * (64 * s.bpc.toNat))
      = { e.skip (r.n * (64 * s.bpc.toNat)) with mem := s.mem } :=
        congrArg (fun m => { e.skip (r.n * (64 * s.bpc.toNat)) with mem := m }) (hp.mem_eq h hwf hb).symm
    _ = { e.reposition e.ctr (r.n * s.bpc.toNat) with mem := s.mem } := by
        rw [Nat.mul_left_comm, Engine.skip_blocks hused hexh hpos (hbase ▸ hwrap)]
    _ = s.toEngine.reposition r.base (r.n * s.bpc.toNat) := by
        rw [hbase, hp.engine]
        rfl

/-- The stream has every byte of the region (R195). -/
theorem Region.Progress.le_capacity (hp : r.Progress j s.bpc.toNat e s.toEngine) (h : r.Ok j s) :
    r.n * (64 * s.bpc.toNat) ≤ e.capacity := by
  obtain ⟨_, hexh, hbase⟩ := hp.registers h
  have hwrap := h.noWrap
  rw [hbase] at hwrap
  rw [Engine.capacity, hexh, Nat.mul_left_comm, if_neg Bool.false_ne_true]
  omega

end

end Sys2Proof.Machine
end

section
/-! SUPPORT. Atomic steps against the sequential engine: every step of a command keeps the state that SeqRun alone would end in
(43_parallel.md R202, R210, R211). It settles O57. -/

namespace Sys2Proof.Machine

/-! ### What the sequential engine has left to do -/

/-- SeqRun over the bytes of job `j` from its offset on, by the engine `e` (R170). -/
def Job.runRest (j : Job) (e : Engine) : SeqResult := seqRun j.src j.dst j.zero (j.len - j.i) j.i e

/-- The state a command leaves when its last SeqRun returns `r` (R177, R178). -/
def State.finishRun (s : State) (r : SeqResult) : State :=
  ({ s with toEngine := r.engine } : State).finish r.cause (BitVec.ofNat 32 r.count) 0

theorem State.generate_eq_finishRun (s : State) (src dst len : Nat) (zero : Bool) :
    s.generate src dst len zero = s.finishRun ((s.newJob src dst len zero).runRest s.toEngine) := rfl

section
variable {j : Job} {e : Engine}

theorem Job.runRest_done (h : j.i = j.len) : j.runRest e = ⟨e, j.len, .ok⟩ := by
  rw [Job.runRest, h, Nat.sub_self, seqRun_zero]

theorem Job.runRest_exhausted (hi : j.i < j.len) (hn : e.next = 64) (he : e.exh = true) :
    j.runRest e = ⟨e.exhaust, j.i, .keystreamExhausted⟩ := by
  rw [Job.runRest, show j.len - j.i = j.len - (j.i + 1) + 1 by omega, seqRun_exhausted hn he]

theorem Job.runRest_byte (hi : j.i < j.len) (hn : e.next ≠ 64) :
    ({ j with i := j.i + 1 } : Job).runRest (e.xorByte j.src j.dst j.zero j.i) = j.runRest e := by
  rw [Job.runRest, Job.runRest, show j.len - j.i = j.len - (j.i + 1) + 1 by omega, seqRun_buffered hn]

theorem Job.runRest_generate (hi : j.i < j.len) (hn : e.next = 64) (he : e.exh = false) :
    j.runRest e.generateBlock = j.runRest e := by
  rw [Job.runRest, Job.runRest, show j.len - j.i = j.len - (j.i + 1) + 1 by omega, seqRun_generates hn he,
    seqRun_buffered (by simp)]

/-- SeqRun over the job's next `n` bytes, which the stream has, then over the others. -/
theorem Job.runRest_produce {n : Nat} {stage : Stage} (hwf : e.mem.wf) (hi : j.i + n ≤ j.len)
    (hov : j.zero = false → partialOverlap j.src j.dst j.len = false) (hcap : n ≤ e.capacity) :
    ({ j with i := j.i + n, stage := stage } : Job).runRest (e.produce (j.src + j.i) (j.dst + j.i) j.zero n) =
      j.runRest e := by
  have hov (hz : j.zero = false) : partialOverlap j.src j.dst (j.i + n) = false :=
    partialOverlap_prefix (b := j.len - (j.i + n)) (by rw [Nat.add_sub_cancel' hi]; exact hov hz)
  rw [Job.runRest, Job.runRest, show j.len - j.i = n + (j.len - (j.i + n)) by omega, seqRun_add,
    seqRun_of_le_capacity hwf hov hcap, if_pos rfl]

end

/-! ### The simulation -/

/-- `e` is the sequential engine at the offset of job `j`, or, while a region runs, at the region's first byte (R210). -/
structure State.SequentialAt (s : State) (j : Job) (e : Engine) : Prop where
  outside : (∀ r, j.stage ≠ .region r) → e = s.toEngine
  inside : ∀ r, j.stage = .region r → r.Progress j s.bpc.toNat e s.toEngine

/-- The command being executed, if any, ends in the state `u`, turns to come apart, when the sequential engine does the rest
of it. -/
def State.endsIn (s u : State) : Prop :=
  match s.phase with
  | .idle => s = { u with agenda := s.agenda }
  | .accepted w => ∃ i, decode w = .ok i ∧ s.afterCommand i = { u with agenda := s.agenda }
  | .running j => ∃ e, s.SequentialAt j e ∧ s.finishRun (j.runRest e) = { u with agenda := s.agenda }

section
variable {s t u : State} {j : Job}

theorem State.endsIn_of_idle (hp : s.phase = .idle) : s.endsIn u ↔ s = { u with agenda := s.agenda } := by
  simp [State.endsIn, hp]

theorem State.endsIn_of_accepted {w : Word} {i : Instr} (hp : s.phase = .accepted w) (hd : decode w = .ok i) :
    s.endsIn u ↔ s.afterCommand i = { u with agenda := s.agenda } := by
  simp [State.endsIn, hp, hd]

theorem State.endsIn_of_running (hp : s.phase = .running j) :
    s.endsIn u ↔ ∃ e, s.SequentialAt j e ∧ s.finishRun (j.runRest e) = { u with agenda := s.agenda } := by
  simp [State.endsIn, hp]

/-- No command reads or writes the turns to come. -/
theorem State.afterCommand_withAgenda (s : State) (i : Instr) (l : List Turn) :
    ({ s with agenda := l } : State).afterCommand i = { s.afterCommand i with agenda := l } := by
  have hcheck : ({ s with agenda := l } : State).checkOf i = s.checkOf i := by cases i <;> rfl
  unfold State.afterCommand
  rw [hcheck]
  split
  · rfl
  · cases s.checkOf i with
    | some c => rfl
    | none => cases i <;> rfl

theorem State.endsIn_withAgenda (h : s.endsIn u) (l : List Turn) : ({ s with agenda := l } : State).endsIn u := by
  have hset {v : State} (hv : v = { u with agenda := s.agenda }) : { v with agenda := l } = { u with agenda := l } :=
    congrArg (fun v : State => { v with agenda := l }) hv
  unfold State.endsIn at h
  split at h
  next hp => exact (State.endsIn_of_idle (s := { s with agenda := l }) hp).mpr (hset h)
  next w hp =>
    obtain ⟨i, hd, hu⟩ := h
    exact (State.endsIn_of_accepted (s := { s with agenda := l }) hp hd).mpr
      ((s.afterCommand_withAgenda i l).trans (hset hu))
  next j hp =>
    obtain ⟨e, he, hu⟩ := h
    exact (State.endsIn_of_running (s := { s with agenda := l }) hp).mpr ⟨e, ⟨he.outside, he.inside⟩, hset hu⟩

/-- The workers' moves write what the sequential engine writes, in another order (R202). -/
theorem State.SequentialAt.workerMove {r : Region} {m : Move} {e : Engine} (he : s.SequentialAt j e) (h : s.Inv)
    (hj : s.phase = .running j) (hr : j.stage = .region r) (hm : m ∈ r.moves s.cfg.numLanes) :
    ∃ q, (s.workerMove j r m).phase = .running { j with stage := .region q } ∧
      (s.workerMove j r m).SequentialAt { j with stage := .region q } e := by
  have hok := h.job j hj
  have hreg := hok.region r hr
  have hprog := he.inside r hr
  have hgoes {q : Region} {mem : Memory} (hq : q.Progress j s.bpc.toNat e { s.toEngine with mem := mem }) :
      (({ s with mem := mem } : State).withRegion j q).SequentialAt { j with stage := .region q } e :=
    ⟨fun hst => absurd rfl (hst q), fun q' hq' => by cases hq'; exact hq.withStage _⟩
  rcases Region.mem_moves.mp hm with ⟨_, k, _, rfl⟩ | ⟨w, hw, hl, lane, _, rfl⟩ | ⟨w, hw, hl, rfl⟩
  · exact ⟨_, rfl, hgoes (mem := s.mem) (hprog.congr ⟨rfl, rfl⟩ fun b => Region.written_admission)⟩
  · simp only [State.workerMove, hreg.find_running hw]
    exact ⟨_, rfl, hgoes (hprog.block hreg hok h.memWf hw hl)⟩
  · have hbpc := BitVec.toNat_pos_of_ne_zero h.tuning.1
    exact ⟨_, rfl, hgoes (mem := s.mem) (hprog.congr ⟨rfl, rfl⟩ fun b => Region.written_release hbpc hw hl)⟩

/-- No atomic step of a job changes where the sequential engine would end (R202, R210). -/
theorem JobStep.endsIn (ht : JobStep s j t) (h : s.Inv) (hj : s.phase = .running j) (hs : s.endsIn u) : t.endsIn u := by
  obtain ⟨e, he, hu⟩ := (State.endsIn_of_running hj).mp hs
  cases ht with
  | byte hstage hi hn =>
    obtain rfl := he.outside hstage
    exact (State.endsIn_of_running (s.byteStep_phase j)).mpr ⟨_, ⟨fun _ => rfl, fun r hr => absurd hr (hstage r)⟩,
      (congrArg s.finishRun (Job.runRest_byte hi hn)).trans hu⟩
  | enterRegion hstage _ _ =>
    obtain rfl := he.outside (by simp [hstage])
    exact (State.endsIn_of_running (s.withRegion_phase j _)).mpr ⟨_, ⟨fun hst => absurd rfl (hst _), fun q hq => by
      cases hq
      exact (State.newRegion_progress h.memWf j _ _).withStage _⟩, hu⟩
  | enterRest hstage _ =>
    obtain rfl := he.outside (by simp [hstage])
    exact (State.endsIn_of_running (j := { j with stage := .rest }) rfl).mpr ⟨_, ⟨fun _ => rfl, by simp⟩, hu⟩
  | reposition r hstage hb =>
    have hok := h.job j hj
    have hreg := hok.region r hstage
    have hprog := he.inside r hstage
    have hinside := hreg.inside
    have hrest := Job.runRest_produce (stage := .rest) hprog.wf (hreg.off ▸ hinside) (fun hz => (hok.src hz).2)
      (hprog.le_capacity hreg)
    rw [← hreg.off, hprog.reposition_eq hreg h.memWf h.tuning.1 hb, hreg.off] at hrest
    exact (State.endsIn_of_running rfl).mpr ⟨_, ⟨fun _ => rfl, by simp⟩, (congrArg s.finishRun hrest).trans hu⟩
  | move r m hstage _ hm =>
    obtain ⟨q, hq, heq⟩ := he.workerMove h hj hstage hm
    obtain ⟨mem, phase, hframe⟩ := s.workerMove_frame j r m
    rw [hframe] at hq heq ⊢
    exact (State.endsIn_of_running hq).mpr ⟨e, heq, hu⟩
  | wait _ _ _ _ => exact hs
  | complete hstage hi =>
    obtain rfl := he.outside (by simp [hstage])
    rw [Job.runRest_done (Nat.le_antisymm (h.job j hj).reached hi)] at hu
    exact (State.endsIn_of_idle (State.finish_phase ..)).mpr hu
  | exhaust hstage hi hn hexh =>
    obtain rfl := he.outside (by simp [hstage])
    rw [Job.runRest_exhausted hi hn hexh] at hu
    exact (State.endsIn_of_idle (State.finish_phase ..)).mpr hu
  | generate hstage hi hn hexh =>
    obtain rfl := he.outside (by simp [hstage])
    exact (State.endsIn_of_running (s := { s with toEngine := s.toEngine.generateBlock }) hj).mpr ⟨_,
      ⟨fun _ => rfl, by simp [hstage]⟩, (congrArg s.finishRun (Job.runRest_generate hi hn hexh)).trans hu⟩

/-- No move of the core changes where the sequential engine would end. -/
theorem State.fineMove_endsIn {pick : Nat} (h : s.Inv) (hs : s.endsIn u) (hm : s.fineMove pick = .next t) : t.endsIn u := by
  unfold State.fineMove at hm
  split at hm
  next => cases hm; exact hs
  next w hp =>
    simp only [State.endsIn, hp] at hs
    obtain ⟨i, hd, hu⟩ := hs
    split at hm
    next =>
      simp only [State.runWord, hd, exec_eq] at hm
      cases hm
      rw [State.endsIn_of_idle (exec_ends_idle (exec_eq i s)), hu]
    next j hj =>
      cases hm
      obtain ⟨k, hk, hjk⟩ := State.currentJob_of_accepted hp hj
      obtain rfl : k = i := by simpa [hk] using hd
      obtain ⟨src, dst, zero, rfl, hgen⟩ := State.jobOf_eq_some hjk
      exact (State.endsIn_of_running (j := s.newJob src dst s.a2.toNat zero) rfl).mpr
        ⟨_, ⟨fun _ => rfl, by simp [State.newJob]⟩, hgen.symm.trans hu⟩
  next j hp => cases hm; exact (s.jobStep_effect j pick).endsIn h hp hs

end

/-- Settles O57: a run of atomic steps keeps the end state of the whole command. -/
theorem everyInterleavingEndsLikeTheSequentialEngine : Obligations.EveryInterleavingEndsLikeTheSequentialEngine := by
  intro s t w i picks n h hp hd ha hn hsteps ht
  have hstart : s.endsIn (s.afterCommand i) :=
    (State.endsIn_of_accepted hp hd).mpr (s.afterCommand_withAgenda i s.agenda)
  obtain ⟨_, hend⟩ := steps_fine_keeps (P := fun s' => s'.Inv ∧ s'.endsIn (s.afterCommand i))
    (fun s' p t' hs' hm => ⟨(State.fineMove_effect hm).inv hs'.1, State.fineMove_endsIn hs'.1 hs'.2 hm⟩)
    (fun s' l hs' => ⟨hs'.1.withAgenda l, State.endsIn_withAgenda hs'.2 l⟩) ha hn ⟨h, hstart⟩ hsteps
  rw [exec_eq, s.afterCommand_withAgenda i t.agenda, ← (State.endsIn_of_idle ht).mp hend]

end Sys2Proof.Machine
end

section
/-! SUPPORT. What an error leaves (R226 to R236): a command rejects or completes, the causes and FATAL of each outcome, and
which steps clear FATAL. It settles O6, O7, O35, O41 and O47 to O49. -/

namespace Sys2Proof.Machine

/-! ### How a command ends (R226 to R229) -/

/-- A command that is not dropped and whose check applies leaves the rejected state (R229, R233). -/
theorem exec_rejectedWith {i : Instr} {s : State} {c : Cause} (hf : i = .init ∨ s.fatal = false)
    (hc : s.checkOf i = some c) : exec i s = .next (s.rejectedWith c) := by
  rw [exec_of_check_some hf hc, State.reject_eq _ _ (State.isFatal_of_checkOf hc)]

/-- A command that is not dropped leaves the rejected state of its check, or has its effect. -/
theorem exec_rejects_or_completes {i : Instr} {s t : State} (hf : i = .init ∨ s.fatal = false)
    (h : exec i s = .next t) :
    (∃ c, s.checkOf i = some c ∧ t = s.rejectedWith c) ∨ (s.checkOf i = none ∧ t = s.effectOf i) := by
  cases hc : s.checkOf i with
  | some c =>
    rw [exec_rejectedWith hf hc] at h
    cases h
    exact .inl ⟨c, rfl, rfl⟩
  | none =>
    rw [exec_of_check_none hf hc] at h
    cases h
    exact .inr ⟨rfl, rfl⟩

/-- A completed command leaves FATAL = 0 (R132, R228). -/
theorem State.effectOf_fatal {i : Instr} {s : State} (hf : i = .init ∨ s.fatal = false) :
    (s.effectOf i).fatal = false := by
  cases i with
  | init => rfl
  | xor => exact (State.generate_fatal ..).trans (hf.resolve_left (by simp))
  | ks => exact (State.generate_fatal ..).trans (hf.resolve_left (by simp))
  | _ => exact Bool.or_eq_false_iff.mpr ⟨hf.resolve_left (by simp), rfl⟩

/-- A completed command ends with OK, or, an XOR or KS, with KeystreamExhausted (R173, R226). -/
theorem State.effectOf_cause (s : State) (i : Instr) :
    (s.effectOf i).cause = .ok ∨ (i = .xor ∨ i = .ks) ∧ (s.effectOf i).cause = .keystreamExhausted := by
  have hgenerate (src dst len : Nat) (zero : Bool) : (s.generate src dst len zero).cause = .ok ∨
      (s.generate src dst len zero).cause = .keystreamExhausted :=
    (seqRun_ends src dst zero len 0 s.toEngine).imp And.left And.left
  cases i with
  | xor => exact (hgenerate ..).imp_right fun h => ⟨.inl rfl, h⟩
  | ks => exact (hgenerate ..).imp_right fun h => ⟨.inr rfl, h⟩
  | _ => exact .inl rfl

/-- The causes that are not of the fatal class (R220, R225). -/
theorem Cause.isFatal_eq_false_iff {c : Cause} : c.isFatal = false ↔ c = .ok ∨ c = .keystreamExhausted := by
  cases c <;> decide

/-- The causes of a command's checks are in its row of R226. -/
theorem State.checkOf_mem_possibleCauses {s : State} {i : Instr} {c : Cause} (h : s.checkOf i = some c) :
    c ∈ possibleCauses i := by
  cases i with
  | seek => cases h
  | getctr => cases h
  | _ =>
    simp only [State.checkOf, State.checkInit, State.checkKeysetup, State.checkIvsetup, checkSetrounds, State.checkTune,
      State.checkXor, State.checkKs] at h
    split_ifs at h <;> cases h <;> simp [possibleCauses]

/-- The cause a completed command ends with is in its row of R226, and not of the fatal class. -/
theorem State.effectOf_cause_mem_possibleCauses (s : State) (i : Instr) :
    (s.effectOf i).cause ∈ possibleCauses i ∧ (s.effectOf i).cause.isFatal = false := by
  rcases s.effectOf_cause i with h | ⟨hi, h⟩ <;> rw [h]
  · exact ⟨by cases i <;> simp [possibleCauses], rfl⟩
  · exact ⟨by rcases hi with rfl | rfl <;> simp [possibleCauses], rfl⟩

/-- Settles O47: a command that completes leaves FATAL = 0, so this one was rejected. -/
theorem fatalCommandsAreAllOrNothing : Obligations.FatalCommandsAreAllOrNothing := by
  intro i s t hf h ht
  rcases exec_rejects_or_completes hf.symm h with ⟨c, hc, rfl⟩ | ⟨_, rfl⟩
  · exact ⟨State.isFatal_of_checkOf hc, rfl⟩
  · simp [State.effectOf_fatal hf.symm] at ht

/-- Settles O48: the causes of the checks are fatal, those of the effects are not. -/
theorem commandsEndOnlyWithTheirCauses : Obligations.CommandsEndOnlyWithTheirCauses := by
  intro i s t hf h
  rw [← Cause.isFatal_eq_false_iff]
  rcases exec_rejects_or_completes hf.symm h with ⟨c, hc, rfl⟩ | ⟨_, rfl⟩
  · exact ⟨State.checkOf_mem_possibleCauses hc, by simp [State.isFatal_of_checkOf hc]⟩
  · obtain ⟨hmem, hok⟩ := s.effectOf_cause_mem_possibleCauses i
    exact ⟨hmem, iff_of_true hok (State.effectOf_fatal hf.symm)⟩

/-! ### The order of the checks (R233) -/

theorem keyLengthOk_iff {n : Nat} : keyLengthOk n = true ↔ n ∈ [16, 32] := by simp [keyLengthOk]

theorem pos_of_mem_keyLengths {n : Nat} (h : n ∈ [16, 32]) : 0 < n := by
  simp only [List.mem_cons, List.not_mem_nil, or_false] at h
  omega

/-- Settles O35: INIT, KEYSETUP and IVSETUP reject with the first of their checks that applies. -/
theorem contextCommandsRejectInTheOrderOfTheirChecks : Obligations.ContextCommandsRejectInTheOrderOfTheirChecks := by
  intro s
  refine ⟨fun hk => exec_rejectedWith (.inl rfl) ?initKey, fun hk hn => exec_rejectedWith (.inl rfl) ?initNonce,
    fun hk hn hm => exec_rejectedWith (.inl rfl) ?initAddress, fun hf => ⟨fun hk => exec_rejects hf ?keyLength,
      fun hk hm => exec_rejects hf ?keyAddress, fun hn => exec_rejects hf ?nonceLength,
      fun hn hm => exec_rejects hf ?nonceAddress⟩⟩
  case initKey => simp [State.checkOf, State.checkInit, Bool.eq_false_iff.mpr (mt keyLengthOk_iff.mp hk)]
  case initNonce => simp [State.checkOf, State.checkInit, keyLengthOk_iff.mpr hk, hn]
  case initAddress =>
    have hout := hm.imp (fun h => inMemory_eq_false_iff.mpr ⟨pos_of_mem_keyLengths hk, h⟩)
      (fun h => inMemory_eq_false_iff.mpr ⟨by decide, h⟩)
    simp [State.checkOf, State.checkInit, keyLengthOk_iff.mpr hk, hn, hout]
  case keyLength => simp [State.checkOf, State.checkKeysetup, Bool.eq_false_iff.mpr (mt keyLengthOk_iff.mp hk)]
  case keyAddress =>
    simp [State.checkOf, State.checkKeysetup, keyLengthOk_iff.mpr hk,
      inMemory_eq_false_iff.mpr ⟨pos_of_mem_keyLengths hk, hm⟩]
  case nonceLength => simp [State.checkOf, State.checkIvsetup, hn]
  case nonceAddress => simp [State.checkOf, State.checkIvsetup, hn, inMemory_eq_false_iff.mpr ⟨by decide, hm⟩]

/-- Settles O41: the check for TERM comes before those of the operands (R236). -/
theorem generationAfterTheTerminalSignalIsFatalMisuse : Obligations.GenerationAfterTheTerminalSignalIsFatalMisuse :=
  fun _ _ hi hf hk hv ht => exec_rejects hf (State.check_fatalMisuse hi hk hv ht)

/-! ### The accepted word, whichever way the core moves (R231, R232) -/

/-- While FATAL = 1 no command has a job (R231). -/
theorem State.jobOf_of_fatal {s : State} (hf : s.fatal = true) (i : Instr) : s.jobOf i = none := by
  cases i with
  | xor => simp [State.jobOf, hf]
  | ks => simp [State.jobOf, hf]
  | _ => rfl

/-- An accepted word begins no job under FATAL. -/
theorem State.currentJob_of_fatal {s : State} {w : Word} (hp : s.phase = .accepted w) (hf : s.fatal = true) :
    s.currentJob = none := by
  simp [State.currentJob, hp, State.jobOf_of_fatal hf]

/-- An illegal word begins no job. -/
theorem State.currentJob_of_illegal {s : State} {w : Word} {e : Illegal} (hp : s.phase = .accepted w)
    (hd : decode w = .error e) : s.currentJob = none := by
  simp [State.currentJob, State.acceptedInstr, hp, hd, Except.toOption]

/-- Where the next turn is the core's, a step is a move of the core in one of its two ways (R41, R288). -/
theorem step_of_coreToMove {s : State} (hc : s.coreToMove) :
    step s = s.nextTurn.coreMove ∨ ∃ pick, step s = s.nextTurn.fineMove pick := by
  rcases hc with ha | ha | ⟨pick, ha⟩
  · exact .inl (by rw [step_of_empty ha, State.nextTurn_of_empty ha])
  · obtain ⟨rest, h⟩ := List.head?_eq_some_iff.mp ha
    exact .inl (by rw [step_of_turn h, State.nextTurn_of_turn h]; rfl)
  · obtain ⟨rest, h⟩ := List.head?_eq_some_iff.mp ha
    exact .inr ⟨pick, by rw [step_of_turn h, State.nextTurn_of_turn h]; rfl⟩

/-- An accepted word with no job to begin is run whole, whichever way the core moves. -/
theorem step_runs_word {s : State} {w : Word} (hp : s.phase = .accepted w) (hj : s.currentJob = none)
    (hc : s.coreToMove) : step s = s.nextTurn.runWord w := by
  have hjob : s.nextTurn.currentJob = none := hj
  rcases step_of_coreToMove hc with h | ⟨pick, h⟩ <;> rw [h]
  · simp only [State.coreMove, State.nextTurn_phase, hp]
  · simp only [State.fineMove, State.nextTurn_phase, hp, hjob]

theorem State.runWord_of_ok {s : State} {w : Word} {i : Instr} (hd : decode w = .ok i) : s.runWord w = exec i s := by
  simp only [State.runWord, hd]

theorem State.runWord_of_illegal {s : State} {w : Word} {e : Illegal} (hd : decode w = .error e) :
    s.runWord w = s.illegalCommand := by
  simp only [State.runWord, hd]

/-- Under FATAL a word other than INIT's is dropped (R231). -/
theorem State.runWord_dropped {s : State} {w : Word} (hf : s.fatal = true) (hd : decode w ≠ .ok .init) :
    s.runWord w = .next s.dropCommand := by
  cases hw : decode w with
  | error e => rw [State.runWord_of_illegal hw]; exact s.gated_of_fatal hf _
  | ok i =>
    have hi : i ≠ .init := by rintro rfl; exact hd hw
    rw [State.runWord_of_ok hw, exec_of_ne_init hi, s.gated_of_fatal hf]

/-- Settles O6: under FATAL no job begins, so every accepted word is run whole. -/
theorem onlyInitRunsUnderFatal : Obligations.OnlyInitRunsUnderFatal := by
  refine ⟨fun s v rest _ hp ha => ?_, fun s w hf hp hc => ?_⟩
  · refine ⟨({ s with agenda := rest } : State).accept v, ?_, rfl, rfl⟩
    rw [step_writeReg ha (by decide), State.writeRegister_of_idle (by exact hp)]
    rfl
  · rw [step_runs_word hp (State.currentJob_of_fatal hp hf) hc]
    exact ⟨State.runWord_of_ok, State.runWord_dropped hf⟩

/-- Settles O7: an illegal word is `reject(IllegalCommand)` behind the gate under FATAL. -/
theorem illegalWordEndsWithIllegalCommand : Obligations.IllegalWordEndsWithIllegalCommand := by
  intro s w e hp hd hc
  rw [step_runs_word hp (State.currentJob_of_illegal hp hd) hc, State.runWord_of_illegal hd, State.illegalCommand,
    State.reject_illegalCommand]
  exact ⟨fun hf => s.nextTurn.gated_of_clear hf _, fun hf => s.nextTurn.gated_of_fatal hf _⟩

/-! ### What clears FATAL (R230, R235) -/

/-- No atomic step of a running job writes FATAL: it ends with OK or KeystreamExhausted (R228). -/
theorem JobStep.fatal {s t : State} {j : Job} (ht : JobStep s j t) : t.fatal = s.fatal := by
  cases ht with
  | complete _ _ => simp [Cause.isFatal]
  | exhaust _ _ _ _ => simp [Cause.isFatal]
  | move r m _ _ _ =>
    obtain ⟨mem, phase, hframe⟩ := s.workerMove_frame j r m
    rw [hframe]
  | _ => rfl

/-- A move of the core that clears FATAL carries out an INIT that passes its checks. -/
theorem CoreStep.clears_fatal {s t : State} (ht : CoreStep s t) (hf : s.fatal = true) (hclear : t.fatal = false) :
    ∃ w, s.phase = .accepted w ∧ decode w = .ok .init ∧ s.checkInit = none := by
  cases ht with
  | idle _ => simp [hf] at hclear
  | dropped _ _ _ => simp [hf] at hclear
  | rejected _ _ _ _ => simp [State.reject, hf] at hclear
  | begun _ _ _ _ _ _ => simp [hf] at hclear
  | job _ _ _ hj => simp [hj.fatal, hf] at hclear
  | completed w i hp hd hrun hc =>
    obtain rfl : i = .init := hrun.resolve_right (by simp [hf])
    exact ⟨w, hp, hd, hc⟩

/-- No host access but the reset input writes FATAL (R35). -/
theorem HostStep.fatal {s t : State} (ht : HostStep s t) : t.fatal = s.fatal := by
  cases ht <;> rfl

/-- A bus access does what a host access can do, the reset input aside (R68). -/
theorem State.busAccess_effect {s t : State} {b : BusAccess} (h : s.busAccess b = .next t) : HostStep s t := by
  rcases s.busAccess_cases b with ⟨a, hroute, hb⟩ | ⟨_, hb⟩ <;> rw [hb] at h
  · exact State.hostAccess_effect (by rintro rfl; exact BusAccess.route_ne_reset _ _ hroute) h
  · cases h

/-- Settles O49: a move of the core clears FATAL only by INIT, and of the other turns only the reset input clears it. -/
theorem onlyInitAndResetClearFatal : Obligations.OnlyInitAndResetClearFatal := by
  intro s t hf h hclear
  have hkept : t.fatal ≠ s.nextTurn.fatal := by simp [hf, hclear]
  rcases step_cases s with ⟨ha, hs⟩ | ⟨pick, ha, hs⟩ | ⟨a, ha, hs⟩ | ⟨b, _, hs⟩ | ⟨_, hs⟩ <;> rw [hs] at h
  · exact .inr ⟨ha.imp_right .inl, (State.coreMove_effect h).clears_fatal hf hclear⟩
  · exact .inr ⟨.inr (.inr ⟨pick, ha⟩), (State.fineMove_effect h).clears_fatal hf hclear⟩
  · by_cases hr : a = .reset
    · exact .inl (hr ▸ ha)
    · exact absurd (State.hostAccess_effect hr h).fatal hkept
  · exact absurd (State.busAccess_effect h).fatal hkept
  · cases h
    exact absurd rfl hkept

end Sys2Proof.Machine
end

section
/-! SUPPORT. A reset that abandons a command (R261) and the ranges the host must leave alone while a command is being
executed (R285). It settles O17 and O18. -/

namespace Sys2Proof.Machine

/-! ### A reset during a command (R261) -/

/-- A reset leaves a byte of the abandoned destination old or as the command would have written it, whatever the free
value. -/
theorem Job.abandonedByte_cases (j : Job) (draw a : Nat) :
    j.abandonedByte draw a = j.start.mem.read a ∨
      j.abandonedByte draw a = (seqRun j.src j.dst j.zero j.len 0 j.start).engine.mem.read a := by
  unfold Job.abandonedByte
  split
  · exact .inr rfl
  · exact .inl rfl

/-- With no job to abandon a reset leaves buffer memory alone (R260). -/
theorem State.memAfterReset_of_no_job {s : State} (hj : s.currentJob = none) : s.memAfterReset = s.mem := by
  simp only [State.memAfterReset, hj]

/-- A reset changes the destination range of the abandoned job and no other byte (R261). -/
theorem State.read_memAfterReset {s : State} {j : Job} (hwf : s.mem.wf) (hj : s.currentJob = some j) (a : Nat) :
    s.memAfterReset.read a =
      if j.dst ≤ a ∧ a < j.dst + j.len then j.abandonedByte s.draws a else s.mem.read a := by
  simp only [State.memAfterReset, hj, Memory.read_writeBytes hwf, List.length_map, List.length_range]
  split
  next ha => simp [show a - j.dst < j.len by omega, Nat.add_sub_cancel' ha.1]
  next => rfl

/-- Settles O17: the reset answers `resetCore`, whose memory is `memAfterReset` of the job being executed. -/
theorem resetDuringACommandLeavesOldOrNewBytes : Obligations.ResetDuringACommandLeavesOldOrNewBytes := by
  intro s rest hwf _ h
  refine ⟨({ s with agenda := rest } : State).resetCore, step_of_turn h, rfl, rfl,
    fun hj => State.memAfterReset_of_no_job hj, fun j hj => ?_⟩
  have hread := State.read_memAfterReset (s := { s with agenda := rest }) hwf hj
  refine ⟨fun a ha => (hread a).trans (if_neg (by omega)), fun a hlo hhi => ?_⟩
  have hbyte := (hread a).trans (if_pos ⟨hlo, hhi⟩)
  exact (j.abandonedByte_cases s.draws a).imp hbyte.trans hbyte.trans

/-! ### The ranges of the command being executed (R285, log entry 10) -/

section
variable {s : State} {w : Word} {i : Instr} {j : Job} {r : Range} {a : Nat} {b : Byte} {rest : List Turn}

theorem State.acceptedInstr_of_decode (hp : s.phase = .accepted w) (hd : decode w = .ok i) :
    s.acceptedInstr = some i := by
  simp only [State.acceptedInstr, hp, hd, Except.toOption]

/-- The job being executed is that of the accepted command (R190). -/
theorem State.currentJob_of_decode (hp : s.phase = .accepted w) (hd : decode w = .ok i) : s.currentJob = s.jobOf i := by
  simp only [State.currentJob, hp, State.acceptedInstr_of_decode hp hd, Option.bind_some]

theorem State.currentJob_of_running (hp : s.phase = .running j) : s.currentJob = some j := by
  simp only [State.currentJob, hp]

/-- The job of an XOR that passes its checks (R177). -/
theorem State.jobOf_xor (hf : s.fatal = false) (hc : s.checkXor = none) :
    s.jobOf .xor = some (s.newJob s.a0.toNat s.a1.toNat s.a2.toNat false) := by
  simp [State.jobOf, hf, hc]

/-- The job of a KS that passes its checks (R178). -/
theorem State.jobOf_ks (hf : s.fatal = false) (hc : s.checkKs = none) :
    s.jobOf .ks = some (s.newJob 0 s.a1.toNat s.a2.toNat true) := by
  simp [State.jobOf, hf, hc]

/-- INIT reads its key and its nonce, behind no gate (R132, R231). -/
theorem State.contextReads_init (hc : s.checkInit = none) :
    s.contextReads .init = [(s.a0.toNat, s.a2.toNat), (s.a1.toNat, 8)] := by
  simp [State.contextReads, hc]

/-- KEYSETUP reads its key (R131). -/
theorem State.contextReads_keysetup (hf : s.fatal = false) (hc : s.checkKeysetup = none) :
    s.contextReads .keysetup = [(s.a0.toNat, s.a2.toNat)] := by
  simp [State.contextReads, hf, hc]

/-- IVSETUP reads its nonce (R133). -/
theorem State.contextReads_ivsetup (hf : s.fatal = false) (hc : s.checkIvsetup = none) :
    s.contextReads .ivsetup = [(s.a0.toNat, 8)] := by
  simp [State.contextReads, hf, hc]

/-- The key and nonce ranges of the accepted command are among those it reads. -/
theorem State.mem_readRanges_of_contextReads (hp : s.phase = .accepted w) (hd : decode w = .ok i)
    (hr : r ∈ s.contextReads i) : r ∈ s.readRanges :=
  List.mem_append_left _ (by simpa only [State.acceptedInstr_of_decode hp hd] using hr)

/-- The source of an XOR is among the ranges it reads. -/
theorem State.source_mem_readRanges (hj : s.currentJob = some j) (hz : j.zero = false) :
    (j.src, j.len) ∈ s.readRanges :=
  List.mem_append_right _ (by simp [hj, hz])

theorem State.destination_mem_writeRanges (hj : s.currentJob = some j) : (j.dst, j.len) ∈ s.writeRanges :=
  State.mem_writeRanges.mpr ⟨j, hj, rfl⟩

theorem inRange_eq_true_iff : inRange a r = true ↔ r.1 ≤ a ∧ a < r.1 + r.2 := by
  simp [inRange]

/-! ### The faults (R285) -/

/-- A host write in a range the command being executed reads or writes is a fault. -/
theorem step_writeMem_in_range (h : s.agenda = .host (.writeMem a b) :: rest) (ha : a < s.cfg.memSize)
    (hr : r ∈ s.readRanges ++ s.writeRanges) (hlo : r.1 ≤ a) (hhi : a < r.1 + r.2) :
    step s = .fault .hostTouchesRunningRange := by
  have hforbidden : ({ s with agenda := rest } : State).hostWriteForbidden a = true :=
    List.any_eq_true.mpr ⟨r, hr, inRange_eq_true_iff.mpr ⟨hlo, hhi⟩⟩
  simp only [step_of_turn h, State.turn, State.hostAccess, if_neg (Nat.not_le.mpr ha), hforbidden, if_true]

/-- A host write of a key or nonce byte of the accepted command is a fault. -/
theorem step_writeMem_in_context (h : s.agenda = .host (.writeMem a b) :: rest) (ha : a < s.cfg.memSize)
    (hp : s.phase = .accepted w) (hd : decode w = .ok i) (hr : r ∈ s.contextReads i) (hlo : r.1 ≤ a)
    (hhi : a < r.1 + r.2) : step s = .fault .hostTouchesRunningRange :=
  step_writeMem_in_range h ha (List.mem_append_left _ (State.mem_readRanges_of_contextReads hp hd hr)) hlo hhi

/-- A host write of a destination or source byte of the job being executed is a fault. -/
theorem step_writeMem_in_job (h : s.agenda = .host (.writeMem a b) :: rest) (ha : a < s.cfg.memSize)
    (hj : s.currentJob = some j)
    (hr : (j.dst ≤ a ∧ a < j.dst + j.len) ∨ (j.zero = false ∧ j.src ≤ a ∧ a < j.src + j.len)) :
    step s = .fault .hostTouchesRunningRange := by
  rcases hr with ⟨hlo, hhi⟩ | ⟨hz, hlo, hhi⟩
  · exact step_writeMem_in_range h ha (List.mem_append_right _ (State.destination_mem_writeRanges hj)) hlo hhi
  · exact step_writeMem_in_range h ha (List.mem_append_left _ (State.source_mem_readRanges hj hz)) hlo hhi

/-- A host read of a destination byte of the job being executed is a fault. -/
theorem step_readMem_in_job (h : s.agenda = .host (.readMem a) :: rest) (ha : a < s.cfg.memSize)
    (hj : s.currentJob = some j) (hlo : j.dst ≤ a) (hhi : a < j.dst + j.len) :
    step s = .fault .hostTouchesRunningRange := by
  have hforbidden : ({ s with agenda := rest } : State).hostReadForbidden a = true :=
    List.any_eq_true.mpr ⟨_, State.destination_mem_writeRanges hj, inRange_eq_true_iff.mpr ⟨hlo, hhi⟩⟩
  simp only [step_of_turn h, State.turn, State.hostAccess, if_neg (Nat.not_le.mpr ha), hforbidden, if_true]

end

/-- Settles O18: the operands' bytes stand in the key and nonce ranges of the accepted command, or in the source or
destination of its job. -/
theorem hostAccessInARunningRangeFaults : Obligations.HostAccessInARunningRangeFaults := by
  refine ⟨fun s w i a b rest hp hd ha => ?_, fun s j a b rest hp ha => ?_⟩
  · have hjob := State.currentJob_of_decode hp hd
    refine ⟨fun h => ⟨?_, ?_, ?_, ?_, ?_⟩, ?_⟩
    · rintro rfl hc hr
      have hctx := State.contextReads_init hc
      rcases hr with ⟨hlo, hhi⟩ | ⟨hlo, hhi⟩
      · exact step_writeMem_in_context h ha hp hd (hctx ▸ List.mem_cons_self) hlo hhi
      · exact step_writeMem_in_context h ha hp hd (hctx ▸ List.mem_cons_of_mem _ List.mem_cons_self) hlo hhi
    · rintro hf rfl hc hlo hhi
      exact step_writeMem_in_context h ha hp hd (State.contextReads_keysetup hf hc ▸ List.mem_cons_self) hlo hhi
    · rintro hf rfl hc hlo hhi
      exact step_writeMem_in_context h ha hp hd (State.contextReads_ivsetup hf hc ▸ List.mem_cons_self) hlo hhi
    · rintro hf rfl hc hr
      refine step_writeMem_in_job h ha (hjob.trans (State.jobOf_xor hf hc)) ?_
      exact hr.symm.imp_right fun hsource => ⟨rfl, hsource⟩
    · rintro hf rfl hc hlo hhi
      exact step_writeMem_in_job h ha (hjob.trans (State.jobOf_ks hf hc)) (.inl ⟨hlo, hhi⟩)
    · rintro h hf (⟨rfl, hc⟩ | ⟨rfl, hc⟩) hlo hhi
      · exact step_readMem_in_job h ha (hjob.trans (State.jobOf_xor hf hc)) hlo hhi
      · exact step_readMem_in_job h ha (hjob.trans (State.jobOf_ks hf hc)) hlo hhi
  · have hjob := State.currentJob_of_running hp
    exact ⟨fun h hr => step_writeMem_in_job h ha hjob hr, fun h hlo hhi => step_readMem_in_job h ha hjob hlo hhi⟩

end Sys2Proof.Machine
end
